-- ==== Sys2Proof/Word.lean ====
section
/-!
DEFINITION. The word types of the block and the names the spec gives its values: bytes, the 128-bit record port,
frame offsets, the frame, the two modes, the nine states, the sampled input ports, the answers and the events.
-/

namespace Sys2Proof

/-- A byte, 8 bits in all three data spaces (R30). -/
abbrev Byte := BitVec 8

/-- The value on `src_data`: a RawSample or a table literal, 128 bits, byte `i` at bits `8*i+7 : 8*i` (R21, R35). -/
abbrev Record := BitVec 128

/-- A frame offset, 0 to 16 (R30, R46); also the reachable values of IDX (R11, R59). -/
abbrev FrameOffset := Fin 17

/-- Seventeen bytes in ascending offset order: a Frame (R46) and the frame buffer `F` (R14). -/
abbrev Frame := Vector Byte 17

/-- The two encoding modes (R16): STREAM is code 0, TABLE code 1. -/
inductive Mode where
  | stream
  | table
deriving DecidableEq, Repr, Inhabited

/-- The nine values of ST (R10). Codes 9 to 15 cannot be written down (R58). -/
inductive Phase where
  | idle | poll | load | sum | csum | write | drain | done | abort
deriving DecidableEq, Repr, Inhabited

/-- The levels on the input ports as they stand before a step (R21), `clk` being the step itself. -/
structure Inputs where
  /-- `rst`, reset, active high. -/
  rst : Bool
  /-- `start`, begin the driver loop. -/
  start : Bool
  /-- `mode`, 0 STREAM, 1 TABLE. -/
  mode : Bool
  /-- `src_has_next`, the answer of `has_next()`. -/
  srcHasNext : Bool
  /-- `src_data`, the value `next()` returns. -/
  srcData : Record
  /-- `src_short`, the record was made from fewer than 16 bytes of input. -/
  srcShort : Bool
  /-- `tx_accept`, `write_byte` returned without error. -/
  txAccept : Bool
  /-- `tx_drained`, `drain` returned without error. -/
  txDrained : Bool
  /-- `tx_err`, the outstanding call failed. -/
  txErr : Bool
deriving DecidableEq, Repr, Inhabited

/-- The transport's answer to an outstanding call (R51). -/
inductive Answer where
  | fail | ok | wait
deriving DecidableEq, Repr, Inhabited

/-- The input condition that tells rows of one select word apart (R56, R57): what the state's own inputs say.
`go` is start, more input, the answer ok, or a state that samples nothing; `hold` is no start, no more input, the
answer wait; `fail` is the answer fail; `reset` is `rst = 1`, which every state samples. -/
inductive Cond where
  | go | hold | fail | reset
deriving DecidableEq, Repr, Inhabited

/-- How a transport call of the document returned (R7). -/
inductive CallResult where
  | ok | fail
deriving DecidableEq, Repr, Inhabited

/-- An event of the trace (R7). -/
inductive Event where
  /-- `Next(v)`: a LOAD step, `v` the record it latched. -/
  | next (v : Record)
  /-- `W(b, ok)` or `W(b, fail)`: a `write_byte(b)` call returned. -/
  | write (b : Byte) (r : CallResult)
  /-- `D(ok)` or `D(fail)`: a `drain()` call returned. -/
  | drain (r : CallResult)
  /-- `Exhausted`: the POLL step that sampled `src_has_next = 0`. -/
  | exhausted
deriving DecidableEq, Repr

end Sys2Proof
end

