-- ==== Sys2Proof/Config.lean ====
section
/-!
DEFINITION. What is fixed for the block: the sizes of R4, none of them open; and the model's one free value, the levels
an environment that has been given no script drives.
-/

namespace Sys2Proof.Config

/-- SAMPLE_LEN, bytes in one record (R4). -/
def sampleLen : Nat := 16

/-- FRAME_LEN, bytes in one frame (R4). -/
def frameLen : Nat := 17

/-- HDR_LEN, header bytes (R4). -/
def hdrLen : Nat := 4

/-- PAYLOAD_LEN, payload bytes (R4). -/
def payloadLen : Nat := 12

/-- CK_LO, first offset of the checksum window (R4). -/
def ckLo : Nat := 4

/-- CK_HI, last offset of the checksum window (R4). -/
def ckHi : Nat := 15

/-- CK_OFF, offset of the checksum byte (R4). -/
def ckOff : Nat := 16

/-- FREE VALUE (log 1, DESIGN CHOICE, safe). The levels on the input ports at the step numbered `tick`, where no sample
was given for it: the environment agents are oracles (R5), nothing constrains what they drive. -/
opaque freeInputs : Nat → Inputs

end Sys2Proof.Config
end

