-- ==== Sys2Proof/Syntax.lean ====
section
/-!
DEFINITION. The operations of the block: one constructor per row of spec/opcode_table.json, the seventeen OP rows in
the order of the decision list R56, then the seventeen FB rows in offset order.
-/

namespace Sys2Proof

/-- An operation. OP rows take their operands from registers and ports, so they carry none. The six FB rows whose byte
is a field (R57) carry that byte; their meaning reads the port or the accumulator that the byte comes from (log 8). -/
inductive Instr where
  /-- RESET (R165). -/
  | reset
  /-- START (R121). -/
  | start
  /-- IDLE.WAIT (R124). -/
  | idleWait
  /-- POLL.MORE (R122). -/
  | pollMore
  /-- POLL.END (R122, R141). -/
  | pollEnd
  /-- LOAD (R123, R66, R67). -/
  | load
  /-- SUM (R85). -/
  | sum
  /-- CSUM (R86). -/
  | csum
  /-- WRITE.FAIL (R142). -/
  | writeFail
  /-- WRITE.OK (R101). -/
  | writeOk
  /-- WRITE.WAIT (R101). -/
  | writeWait
  /-- DRAIN.FAIL (R143). -/
  | drainFail
  /-- DRAIN.NEXT (R105, R106). -/
  | drainNext
  /-- DRAIN.LAST (R105, R107). -/
  | drainLast
  /-- DRAIN.WAIT (R105). -/
  | drainWait
  /-- DONE.HOLD (R127). -/
  | doneHold
  /-- ABORT.HOLD (R155). -/
  | abortHold
  /-- FS.SYNC1, offset 0 (R68). -/
  | fsSync1
  /-- FS.SYNC2, offset 1 (R69). -/
  | fsSync2
  /-- FS.TYPE, offset 2 (R70). -/
  | fsType
  /-- FS.LEN, offset 3 (R71). -/
  | fsLen
  /-- FS.DIR, offset 4 (R72), with the byte of its FB word. -/
  | fsDir (d : Byte)
  /-- FS.SEQ, offset 5 (R73). -/
  | fsSeq
  /-- FS.XLO, offset 6 (R74), with the byte of its FB word. -/
  | fsXlo (x : Byte)
  /-- FS.XHI, offset 7 (R75), with the byte of its FB word. -/
  | fsXhi (x : Byte)
  /-- FS.YLO, offset 8 (R76), with the byte of its FB word. -/
  | fsYlo (y : Byte)
  /-- FS.YHI, offset 9 (R77), with the byte of its FB word. -/
  | fsYhi (y : Byte)
  /-- FS.ZLO, offset 10 (R78). -/
  | fsZlo
  /-- FS.ZHI, offset 11 (R79). -/
  | fsZhi
  /-- FS.MODEB, offset 12 (R80). -/
  | fsModeb
  /-- FS.XTILT, offset 13 (R81). -/
  | fsXtilt
  /-- FS.YTILT, offset 14 (R82). -/
  | fsYtilt
  /-- FS.NPTS, offset 15 (R83). -/
  | fsNpts
  /-- FS.CS, offset 16 (R84), with the byte of its FB word. -/
  | fsCs (c : Byte)
deriving DecidableEq, Repr

end Sys2Proof
end

