-- ==== Sys2Proof/WellFormed.lean ====
section
/-!
DEFINITION. What is well formed: the operations (no value of an operand is illegal, R60), and sixteen bytes as the
header and payload of a frame with the document's constants (R48, R94).
-/

namespace Sys2Proof

/-- Every operation is well formed: no byte of an encoding is illegal, reserved or a hint (R60). -/
def Instr.wf : Instr → Bool
  | .reset | .start | .idleWait | .pollMore | .pollEnd | .load | .sum | .csum => true
  | .writeFail | .writeOk | .writeWait | .drainFail | .drainNext | .drainLast | .drainWait => true
  | .doneHold | .abortHold => true
  | .fsSync1 | .fsSync2 | .fsType | .fsLen | .fsDir _ | .fsSeq | .fsXlo _ | .fsXhi _ | .fsYlo _ | .fsYhi _ => true
  | .fsZlo | .fsZhi | .fsModeb | .fsXtilt | .fsYtilt | .fsNpts | .fsCs _ => true

/-- The eleven constant offsets hold the constants: the conjuncts of `TableWF` (R48), over sixteen bytes in index
order. Bytes 4, 6, 7, 8 and 9 are free. -/
def bytesWF (b : Vector Byte 16) : Bool :=
  b[0] == 0x55 && b[1] == 0xAA && b[2] == 0x82 && b[3] == 0x0C && b[5] == 0x00 && b[10] == 0x00 &&
  b[11] == 0x00 && b[12] == 0xB0 && b[13] == 0x00 && b[14] == 0x00 && b[15] == 0x01

end Sys2Proof
end

