-- ==== Sys2Proof/Decode.lean ====
section
/-!
DEFINITION. The decoder and the encoder. The block has no instruction memory (R12, R43): an OP operation is selected by
the 9-bit word of ST and IDX and by the inputs the state samples (R56, R57); an FB word of 13 bits names the
operation of one frame offset (R57). Both are tables of masks and patterns. For the table's own words (and the host's
questions) a whole word is three bytes, the 16 bits of the table's word, low byte first, and a byte for the input
condition (log 9).
-/

namespace Sys2Proof

/-- Why a word is refused. -/
inductive DecodeError where
  /-- The bytes end inside a word. -/
  | truncated
  /-- The condition byte is none of the four codes. -/
  | noSuchCondition
  /-- Bits 15 to 13 of the table word are not zero. -/
  | highBits
  /-- No row of R56 has this select word under this condition (the reserved codes of R58 and R59 among them). -/
  | noOperation
  /-- An FB word under an input condition: FB rows have none. -/
  | fieldTakesNoCondition
  /-- An FB word of an offset above 16: there is no offset 17 (R39). -/
  | noSuchOffset
  /-- An FB word of a constant offset with another byte than the constant (R57). -/
  | wrongConstant
deriving DecidableEq, Repr

/-- The 4-bit code of a state, as `st` shows it (R10). -/
def Phase.code : Phase → BitVec 4
  | .idle => 0
  | .poll => 1
  | .load => 2
  | .sum => 3
  | .csum => 4
  | .write => 5
  | .drain => 6
  | .done => 7
  | .abort => 8

/-- The select word `{ST[3:0], IDX[4:0]}` (R57). -/
def selectWord (p : Phase) (i : FrameOffset) : BitVec 9 := p.code ++ BitVec.ofNat 5 i.val

/-- A row of format OP: a word matches where it equals `pattern` on the bits of `mask`, under `cond` (R57). -/
structure OpRow where
  mask : BitVec 9
  pattern : BitVec 9
  cond : Cond
  instr : Instr
deriving DecidableEq, Repr

/-- The OP rows, in the order of the decision list R56, masks and patterns of R57. -/
def opRows : List OpRow :=
  [⟨0x000, 0x000, .reset, .reset⟩,
   ⟨0x1E0, 0x000, .go, .start⟩,
   ⟨0x1E0, 0x000, .hold, .idleWait⟩,
   ⟨0x1E0, 0x020, .go, .pollMore⟩,
   ⟨0x1E0, 0x020, .hold, .pollEnd⟩,
   ⟨0x1E0, 0x040, .go, .load⟩,
   ⟨0x1E0, 0x060, .go, .sum⟩,
   ⟨0x1E0, 0x080, .go, .csum⟩,
   ⟨0x1E0, 0x0A0, .fail, .writeFail⟩,
   ⟨0x1E0, 0x0A0, .go, .writeOk⟩,
   ⟨0x1E0, 0x0A0, .hold, .writeWait⟩,
   ⟨0x1E0, 0x0C0, .fail, .drainFail⟩,
   ⟨0x1F0, 0x0C0, .go, .drainNext⟩,
   ⟨0x1FF, 0x0D0, .go, .drainLast⟩,
   ⟨0x1E0, 0x0C0, .hold, .drainWait⟩,
   ⟨0x1E0, 0x0E0, .go, .doneHold⟩,
   ⟨0x1E0, 0x100, .go, .abortHold⟩]

/-- The row matches the select word under the condition. -/
def OpRow.matches (r : OpRow) (w : BitVec 9) (c : Cond) : Bool := w &&& r.mask == r.pattern && r.cond == c

/-- The first row that matches (R56). -/
def decodeOp (w : BitVec 9) (c : Cond) : Except DecodeError Instr :=
  match opRows.find? (fun r => r.matches w c) with
  | some r => .ok r.instr
  | none => .error .noOperation

/-- A row of format FB: mask and pattern over `{offset[4:0], byte[7:0]}`, and the operation of that offset (R57). -/
structure FieldRow where
  mask : BitVec 13
  pattern : BitVec 13
  build : Byte → Instr

/-- The FB rows, in offset order, masks and patterns of R57. -/
def fieldRows : List FieldRow :=
  [⟨0x1FFF, 0x0055, fun _ => .fsSync1⟩,
   ⟨0x1FFF, 0x01AA, fun _ => .fsSync2⟩,
   ⟨0x1FFF, 0x0282, fun _ => .fsType⟩,
   ⟨0x1FFF, 0x030C, fun _ => .fsLen⟩,
   ⟨0x1F00, 0x0400, .fsDir⟩,
   ⟨0x1FFF, 0x0500, fun _ => .fsSeq⟩,
   ⟨0x1F00, 0x0600, .fsXlo⟩,
   ⟨0x1F00, 0x0700, .fsXhi⟩,
   ⟨0x1F00, 0x0800, .fsYlo⟩,
   ⟨0x1F00, 0x0900, .fsYhi⟩,
   ⟨0x1FFF, 0x0A00, fun _ => .fsZlo⟩,
   ⟨0x1FFF, 0x0B00, fun _ => .fsZhi⟩,
   ⟨0x1FFF, 0x0CB0, fun _ => .fsModeb⟩,
   ⟨0x1FFF, 0x0D00, fun _ => .fsXtilt⟩,
   ⟨0x1FFF, 0x0E00, fun _ => .fsYtilt⟩,
   ⟨0x1FFF, 0x0F01, fun _ => .fsNpts⟩,
   ⟨0x1F00, 0x1000, .fsCs⟩]

/-- The row matches the FB word. -/
def FieldRow.matches (r : FieldRow) (w : BitVec 13) : Bool := w &&& r.mask == r.pattern

/-- The operation an `{offset, byte}` word names (R57). -/
def decodeField (w : BitVec 13) : Except DecodeError Instr :=
  match fieldRows.find? (fun r => r.matches w) with
  | some r => .ok (r.build (w.extractLsb' 0 8))
  | none => if (w.extractLsb' 8 5).toNat ≤ 16 then .error .wrongConstant else .error .noSuchOffset

/-- The FB word of a frame offset and a byte (R57). -/
def fieldWord (i : FrameOffset) (b : Byte) : BitVec 13 := BitVec.ofNat 5 i.val ++ b

/-- The field names of a received frame: each of its seventeen (offset, byte) pairs decoded by the FB rows, which
checks the eleven constants (R57). -/
def frameFields (f : Frame) : List (Except DecodeError Instr) :=
  (List.finRange 17).map (fun i => decodeField (fieldWord i f[i]))

/-- The code of an input condition in the condition byte; 0 is `go` (log 9). -/
def Cond.code : Cond → Byte
  | .go => 0
  | .hold => 1
  | .fail => 2
  | .reset => 3

/-- The input condition a condition byte stands for. -/
def Cond.ofByte (b : Byte) : Option Cond :=
  if b = 0 then some .go else if b = 1 then some .hold else if b = 2 then some .fail
  else if b = 3 then some .reset else none

/-- The table word is an FB word: it lies above the nine bits of a select word, or it is one of the two FB words that
lie below, which as select words would be the unreachable LOAD at IDX 21 and ST 13 (R58, R59; log 9). -/
def isFieldWord (w : BitVec 16) : Bool := 0x200 ≤ w.toNat || w == 0x0055 || w == 0x01AA

/-- A 16-bit table word and its condition. -/
def decodeWord (w : BitVec 16) (c : Cond) : Except DecodeError Instr :=
  if 0x2000 ≤ w.toNat then .error .highBits
  else if isFieldWord w && c == .go then decodeField (w.setWidth 13)
  else if 0x200 ≤ w.toNat then .error .fieldTakesNoCondition
  else decodeOp (w.setWidth 9) c

/-- The first word of a list of bytes, and the bytes after it. -/
def decodeBytes : List Byte → Except DecodeError (Instr × List Byte)
  | lo :: hi :: cond :: rest =>
    match Cond.ofByte cond with
    | none => .error .noSuchCondition
    | some c =>
      match decodeWord (hi ++ lo) c with
      | .ok i => .ok (i, rest)
      | .error e => .error e
  | _ => .error .truncated

/-- The table word of an operation: `match` of its row, with IDX bits zero where the row does not look at them, and
the byte field where it has one (R57). -/
def Instr.word : Instr → BitVec 16
  | .reset | .start | .idleWait => 0x000
  | .pollMore | .pollEnd => 0x020
  | .load => 0x040
  | .sum => 0x060
  | .csum => 0x080
  | .writeFail | .writeOk | .writeWait => 0x0A0
  | .drainFail | .drainNext | .drainWait => 0x0C0
  | .drainLast => 0x0D0
  | .doneHold => 0x0E0
  | .abortHold => 0x100
  | .fsSync1 => 0x0055
  | .fsSync2 => 0x01AA
  | .fsType => 0x0282
  | .fsLen => 0x030C
  | .fsDir d => (0x04 : Byte) ++ d
  | .fsSeq => 0x0500
  | .fsXlo x => (0x06 : Byte) ++ x
  | .fsXhi x => (0x07 : Byte) ++ x
  | .fsYlo y => (0x08 : Byte) ++ y
  | .fsYhi y => (0x09 : Byte) ++ y
  | .fsZlo => 0x0A00
  | .fsZhi => 0x0B00
  | .fsModeb => 0x0CB0
  | .fsXtilt => 0x0D00
  | .fsYtilt => 0x0E00
  | .fsNpts => 0x0F01
  | .fsCs c => (0x10 : Byte) ++ c

/-- The input condition under which an operation is selected (R56); FB operations have none and stand under `go`. -/
def Instr.cond : Instr → Cond
  | .reset => .reset
  | .start | .pollMore | .writeOk | .drainNext | .drainLast => .go
  | .load | .sum | .csum | .doneHold | .abortHold => .go
  | .idleWait | .pollEnd | .writeWait | .drainWait => .hold
  | .writeFail | .drainFail => .fail
  | .fsSync1 | .fsSync2 | .fsType | .fsLen | .fsDir _ | .fsSeq | .fsXlo _ | .fsXhi _ | .fsYlo _ | .fsYhi _ => .go
  | .fsZlo | .fsZhi | .fsModeb | .fsXtilt | .fsYtilt | .fsNpts | .fsCs _ => .go

/-- The three bytes of an operation: table word, low byte first, then the condition byte. -/
def encode (i : Instr) : List Byte := [i.word.extractLsb' 0 8, i.word.extractLsb' 8 8, i.cond.code]

/-- The operation the decoder reads from a table word of `nbits` bits, every bit above them zero. -/
def decodeTableWord (nbits w : Nat) : Option Instr :=
  let v := w % 2 ^ nbits
  if 2 ^ 24 ≤ v then none
  else
    match decodeBytes [BitVec.ofNat 8 v, BitVec.ofNat 8 (v / 2 ^ 8), BitVec.ofNat 8 (v / 2 ^ 16)] with
    | .ok (i, _) => some i
    | .error _ => none

/-! ### Each constructor's word, written out from the spec's encoding of it (R57) -/

theorem decode_reset : decodeOp 0b000000000 .reset = .ok .reset := by decide
theorem decode_start : decodeOp 0b000000000 .go = .ok .start := by decide
theorem decode_idleWait : decodeOp 0b000000000 .hold = .ok .idleWait := by decide
theorem decode_pollMore : decodeOp 0b000100000 .go = .ok .pollMore := by decide
theorem decode_pollEnd : decodeOp 0b000100000 .hold = .ok .pollEnd := by decide
theorem decode_load : decodeOp 0b001000000 .go = .ok .load := by decide
theorem decode_sum : decodeOp 0b001100100 .go = .ok .sum := by decide
theorem decode_csum : decodeOp 0b010001111 .go = .ok .csum := by decide
theorem decode_writeFail : decodeOp 0b010100101 .fail = .ok .writeFail := by decide
theorem decode_writeOk : decodeOp 0b010110000 .go = .ok .writeOk := by decide
theorem decode_writeWait : decodeOp 0b010100000 .hold = .ok .writeWait := by decide
theorem decode_drainFail : decodeOp 0b011010000 .fail = .ok .drainFail := by decide
theorem decode_drainNext : decodeOp 0b011001111 .go = .ok .drainNext := by decide
theorem decode_drainLast : decodeOp 0b011010000 .go = .ok .drainLast := by decide
theorem decode_drainWait : decodeOp 0b011010000 .hold = .ok .drainWait := by decide
theorem decode_doneHold : decodeOp 0b011100000 .go = .ok .doneHold := by decide
theorem decode_abortHold : decodeOp 0b100000101 .go = .ok .abortHold := by decide
theorem decode_fsSync1 : decodeField 0b0000001010101 = .ok .fsSync1 := by decide
theorem decode_fsSync2 : decodeField 0b0000110101010 = .ok .fsSync2 := by decide
theorem decode_fsType : decodeField 0b0001010000010 = .ok .fsType := by decide
theorem decode_fsLen : decodeField 0b0001100001100 = .ok .fsLen := by decide
theorem decode_fsDir : decodeField 0b0010000000111 = .ok (.fsDir 0x07) := by decide
theorem decode_fsSeq : decodeField 0b0010100000000 = .ok .fsSeq := by decide
theorem decode_fsXlo : decodeField 0b0011011111111 = .ok (.fsXlo 0xFF) := by decide
theorem decode_fsXhi : decodeField 0b0011100001111 = .ok (.fsXhi 0x0F) := by decide
theorem decode_fsYlo : decodeField 0b0100001111000 = .ok (.fsYlo 0x78) := by decide
theorem decode_fsYhi : decodeField 0b0100101010110 = .ok (.fsYhi 0x56) := by decide
theorem decode_fsZlo : decodeField 0b0101000000000 = .ok .fsZlo := by decide
theorem decode_fsZhi : decodeField 0b0101100000000 = .ok .fsZhi := by decide
theorem decode_fsModeb : decodeField 0b0110010110000 = .ok .fsModeb := by decide
theorem decode_fsXtilt : decodeField 0b0110100000000 = .ok .fsXtilt := by decide
theorem decode_fsYtilt : decodeField 0b0111000000000 = .ok .fsYtilt := by decide
theorem decode_fsNpts : decodeField 0b0111100000001 = .ok .fsNpts := by decide
theorem decode_fsCs : decodeField 0b1000011010100 = .ok (.fsCs 0xD4) := by decide

end Sys2Proof
end

