-- ==== Sys2Proof/Machine/Operands.lean ====
section
/-!
DEFINITION. The operand forms, as functions of values: bytes of a record, the mode bit, the constants and the field
selector, the byte a frame offset takes, the encoder as a function, the checksum, the literal's well-formedness.
-/

namespace Sys2Proof.Machine

/-- `SrcByte(i) = src_data[8*i+7 : 8*i]`, for `i` from 0 to 15 (R9, R35). -/
def srcByte (v : Record) (i : Nat) : Byte := v.extractLsb' (8 * i) 8

/-- The sixteen bytes of a record, in index order (R45, R47). -/
def recordBytes (v : Record) : Vector Byte 16 := Vector.ofFn (fun i => srcByte v i.val)

/-- The 128-bit value whose byte `i` is `b[i]` (R35, D4). -/
def packRecord (b : Vector Byte 16) : Record :=
  BitVec.ofNat 128 (b.toList.foldr (fun x n => x.toNat + 256 * n) 0)

/-- The mode a level of the `mode` port, or the code of MODE, stands for: 0 STREAM, 1 TABLE (R16). -/
def modeOfBit (b : Bool) : Mode := if b then .table else .stream

/-- The code of a mode (R16). -/
def modeBit : Mode → Bool
  | .stream => false
  | .table => true

/-- A source kind of the field selector (R55). -/
inductive FieldSource where
  /-- `Const(k)`: the constant `k`. -/
  | const (k : Byte)
  /-- `Src(j)`: byte `j` of the record on `src_data`. -/
  | src (j : Fin 16)
  /-- `Ck`: the byte `ACC[7:0]`. -/
  | ck
deriving DecidableEq, Repr

/-- The STREAM column of the selector table (R55), with the constants of R54. -/
def streamColumn : Vector FieldSource 17 :=
  #v[.const 0x55, .const 0xAA, .const 0x82, .const 0x0C, .src 4, .const 0x00, .src 6, .src 7, .src 8, .src 9,
     .const 0x00, .const 0x00, .const 0xB0, .const 0x00, .const 0x00, .const 0x01, .ck]

/-- The TABLE column of the selector table (R55). -/
def tableColumn : Vector FieldSource 17 :=
  #v[.src 0, .src 1, .src 2, .src 3, .src 4, .src 5, .src 6, .src 7, .src 8, .src 9, .src 10, .src 11, .src 12,
     .src 13, .src 14, .src 15, .ck]

/-- The field selector `Sel(m, i)` (R55). -/
def sel (m : Mode) (i : FrameOffset) : FieldSource :=
  match m with
  | .stream => streamColumn[i]
  | .table => tableColumn[i]

/-- The byte `Sel(m, i)` names, for a record `v` and an accumulator `a` (R55). -/
def fieldByte (m : Mode) (v : Record) (a : BitVec 12) (i : FrameOffset) : Byte :=
  match sel m i with
  | .const k => k
  | .src j => srcByte v j.val
  | .ck => a.extractLsb' 0 8

/-- The sum over the natural numbers of the window bytes below offset `n`: `F[4] + ... ` up to `F[n-1]`, at most to
`F[15]` (R85, R87). -/
def windowSumBelow (f : Frame) : Nat → Nat
  | 0 => 0
  | n + 1 => windowSumBelow f n + (if 4 ≤ n ∧ n ≤ 15 then (f[n]?.getD 0).toNat else 0)

/-- The checksum function `Ck` (R87). -/
def ck (f : Frame) : Byte :=
  BitVec.ofNat 8 (f[4].toNat + f[5].toNat + f[6].toNat + f[7].toNat + f[8].toNat + f[9].toNat + f[10].toNat +
    f[11].toNat + f[12].toNat + f[13].toNat + f[14].toNat + f[15].toNat)

/-- The frame's first sixteen bytes as the selector picks them; offset 16 as it was in `old` (R66, R67). -/
def fillFrame (m : Mode) (v : Record) (old : Frame) : Frame :=
  Vector.ofFn (fun i => if i = 16 then old[i] else fieldByte m v 0 i)

/-- `Encode(m, v)`: the encoder as a pure function (R65). -/
def encodeFrame (m : Mode) (v : Record) : Frame :=
  let f := fillFrame m v (Vector.replicate 17 0)
  f.set 16 (ck f)

/-- The checksum of a STREAM frame in closed form: `(0xB1 + S[4] + S[6] + S[7] + S[8] + S[9]) mod 256` (R92). -/
def streamChecksum (s : Record) : Byte :=
  BitVec.ofNat 8 (0xB1 + (srcByte s 4).toNat + (srcByte s 6).toNat + (srcByte s 7).toNat + (srcByte s 8).toNat +
    (srcByte s 9).toNat)

/-- `TableWF(L)` (R48). -/
def tableWF (l : Record) : Bool := bytesWF (recordBytes l)

/-- The header and constant-field invariants of a frame: its first sixteen bytes hold the constants (R94). -/
def frameConstants (f : Frame) : Bool := bytesWF (Vector.ofFn (fun i : Fin 16 => f[i.val]))

/-- A RawSample `S` and a literal `L` are equivalent inputs: `L` is the first sixteen bytes of the STREAM encoding of
`S` (R97). -/
def equivalentInputs (s l : Record) : Bool :=
  recordBytes l == Vector.ofFn (fun i : Fin 16 => (encodeFrame .stream s)[i.val])

end Sys2Proof.Machine
end

