-- ==== Sys2Proof/Machine/State.lean ====
section
/-!
DEFINITION. The state of the machine: the block's 160 bits (R29) and three fields of the model's own (the levels given
for the coming steps, the counter of the free levels, the event trace); why a step can stop; the state after reset.
-/

namespace Sys2Proof.Machine

/-- Why a step stops with a fault. The block itself has no fault that stops it: a TransportError is an entry to ABORT,
a next state (R151). -/
inductive Fault where
  /-- Raised by SUM at an IDX outside 4 to 15, states no run reaches and to which the spec gives no behaviour (R59, U3):
  stuck. Raised by DRAIN.NEXT at IDX 16, where no step selects it: DRAIN.NEXT is the operation for an IDX below 16, and
  the operation at 16 is DRAIN.LAST (R56 lines 13 and 14, R57). Safe (log 5). -/
  | unreachableIndex (st : Phase) (idx : FrameOffset)
  /-- Raised by a step whose select word and inputs match no row of R56. The list is total, so no state raises it
  (the obligation that says so is SelectionFollowsTheDecisionList); it stands for the reserved codes of R58. Safe. -/
  | noOperation
deriving DecidableEq, Repr

/-- Why a step is refused. -/
inductive Refusal where
  /-- An operation without a meaning, by its mnemonic. No arm of `exec` raises it. Safe. -/
  | notModelled (mnemonic : String)
deriving DecidableEq, Repr

/-- The state. The first seven fields are the block's (R29); the last three are the model's. -/
structure State where
  /-- ST, the state of the driver loop and transmitter (R10). -/
  st : Phase
  /-- IDX, the frame offset (R11). -/
  idx : FrameOffset
  /-- ACC, the checksum accumulator (R13). -/
  acc : BitVec 12
  /-- MODE, the encoding mode of the run (R16). -/
  mode : Mode
  /-- UNDERRUN, sticky (R18). -/
  underrun : Bool
  /-- EOP, which transport call failed: false `write_byte`, true `drain` (R19). -/
  eop : Bool
  /-- `F[0..16]`, the frame buffer (R14). -/
  f : Frame
  /-- MODEL's own: the levels on the input ports at the coming steps, the next step's first. A step past the end of
  the list reads free levels (log 1). -/
  inputs : List Inputs
  /-- MODEL's own: the number under which the next step's free levels are drawn (log 2). -/
  tick : Nat
  /-- MODEL's own: the event trace, oldest event first (R7, log 3). -/
  trace : List Event
deriving DecidableEq, Repr

/-- The state after a step with `rst = 1` (R166). `F` is unspecified there: zeros are this model's choice (log 4). No
levels are given and no event has been recorded. -/
def State.reset : State where
  st := .idle
  idx := 0
  acc := 0
  mode := .stream
  underrun := false
  eop := false
  f := Vector.replicate 17 0
  inputs := []
  tick := 0
  trace := []

end Sys2Proof.Machine
end

