-- ==== Sys2Proof/Machine/Flags.lean ====
section
/-!
DEFINITION. The answers on the handshake ports, the condition a state samples, the status flags, the output ports and
the CTRL and STATUS groups.
-/

namespace Sys2Proof.Machine

/-- The transport's answer to `write_byte`, as WRITE decodes it: `tx_err` first, `tx_drained` ignored (R51, R149). -/
def writeAnswer (x : Inputs) : Answer := if x.txErr then .fail else if x.txAccept then .ok else .wait

/-- The transport's answer to `drain`, as DRAIN decodes it: `tx_err` first, `tx_accept` ignored (R51, R149). -/
def drainAnswer (x : Inputs) : Answer := if x.txErr then .fail else if x.txDrained then .ok else .wait

/-- An answer as an input condition. -/
def condOfAnswer : Answer → Cond
  | .fail => .fail
  | .ok => .go
  | .wait => .hold

/-- A yes or no input as an input condition. -/
def condOfBit (b : Bool) : Cond := if b then .go else .hold

/-- The input condition of a step: `rst` first in every state (R148), then the inputs the state samples and no others
(R21, R56). -/
def sampleCond (p : Phase) (x : Inputs) : Cond :=
  if x.rst then .reset
  else
    match p with
    | .idle => condOfBit x.start
    | .poll => condOfBit x.srcHasNext
    | .write => condOfAnswer (writeAnswer x)
    | .drain => condOfAnswer (drainAnswer x)
    | .load | .sum | .csum | .done | .abort => .go

/-- `busy`: ST is POLL, LOAD, SUM, CSUM, WRITE or DRAIN (R20). -/
def busyIn : Phase → Bool
  | .poll | .load | .sum | .csum | .write | .drain => true
  | .idle | .done | .abort => false

/-- The output ports (R22). -/
structure Outputs where
  srcNext : Bool
  txWrite : Bool
  txData : Byte
  txDrain : Bool
  busy : Bool
  done : Bool
  err : Bool
  underrun : Bool
  eop : Bool
  st : BitVec 4
  idx : BitVec 5
deriving DecidableEq, Repr

/-- Every output is a function of the state alone (R6, R22). -/
def State.outputs (s : State) : Outputs where
  srcNext := s.st == .load
  txWrite := s.st == .write
  txData := if s.st = .write then s.f[s.idx] else 0x00
  txDrain := s.st == .drain
  busy := busyIn s.st
  done := s.st == .done
  err := s.st == .abort
  underrun := s.underrun
  eop := s.eop
  st := s.st.code
  idx := BitVec.ofNat 5 s.idx.val

/-- The STATUS group, format Q: `st` 3:0, `idx` 8:4, `eop` 9, `underrun` 10, `busy` 11, `done` 12, `err` 13, zeros in
15:14 (R25, R50). -/
def Outputs.status (o : Outputs) : BitVec 16 :=
  (0 : BitVec 2) ++ BitVec.ofBool o.err ++ BitVec.ofBool o.done ++ BitVec.ofBool o.busy ++ BitVec.ofBool o.underrun ++
    BitVec.ofBool o.eop ++ o.idx ++ o.st

/-- A command of the CTRL group (R49). -/
inductive Command where
  | none
  | start (m : Mode)
deriving DecidableEq, Repr

/-- Format C, 2 bits: bit 0 `start`, bit 1 `mode` (R24, R49). -/
def ctrlWord (x : Inputs) : BitVec 2 := BitVec.ofBool x.mode ++ BitVec.ofBool x.start

/-- The command a CTRL value gives: `0b01` START in STREAM mode, `0b11` START in TABLE mode, no command else (R49). -/
def commandOf (c : BitVec 2) : Command :=
  if c = 0b01 then .start .stream else if c = 0b11 then .start .table else .none

end Sys2Proof.Machine
end

