-- ==== Sys2Proof/Machine/Ops.lean ====
section
/-!
DEFINITION. The named operations: the levels a step samples, the registers' writes, the events, the entry to ABORT, the
reset, the selection of the operation, and the placing of an operation where the next step selects it.
-/

namespace Sys2Proof.Machine

/-! ### Inputs and events -/

/-- The levels on the input ports as the next step samples them (R6, R21): the first given ones, else free ones
(log 1). -/
def State.now (s : State) : Inputs :=
  match s.inputs with
  | x :: _ => x
  | [] => Config.freeInputs s.tick

/-- The step event has passed: the next step samples the next levels (R6). -/
def State.advance (s : State) : State := { s with inputs := s.inputs.tail, tick := s.tick + 1 }

/-- Record an event at the end of the trace (R7). -/
def State.record (s : State) (e : Event) : State := { s with trace := s.trace ++ [e] }

/-! ### Registers -/

/-- `ST <- p` (R10). -/
def State.goto (s : State) (p : Phase) : State := { s with st := p }

/-- `IDX <- i` (R11). -/
def State.setIdx (s : State) (i : FrameOffset) : State := { s with idx := i }

/-- `ACC <- a` (R13). -/
def State.setAcc (s : State) (a : BitVec 12) : State := { s with acc := a }

/-- `MODE <- m` (R16). -/
def State.setMode (s : State) (m : Mode) : State := { s with mode := m }

/-- `UNDERRUN <- UNDERRUN | b`, sticky (R18, R144). -/
def State.noteUnderrun (s : State) (b : Bool) : State := { s with underrun := s.underrun || b }

/-- `F[i] <- b` (R14). -/
def State.writeF (s : State) (i : FrameOffset) (b : Byte) : State := { s with f := s.f.set i b }

/-- The byte at the offset IDX, `F[IDX]` (R31). -/
def State.byteAtIdx (s : State) : Byte := s.f[s.idx]

/-! ### The field selector, the checksum, the byte advance -/

/-- The field-selector operation of offset `i`: `F[i]` takes the byte that `Sel(MODE, i)` names (R55, R68 to R84). -/
def State.selectField (s : State) (i : FrameOffset) : State :=
  s.writeF i (fieldByte s.mode s.now.srcData s.acc i)

/-- The sixteen field-selector operations of offsets 0 to 15 at one step; `F[16]` unchanged (R56 line 6, R66, R67). -/
def State.fillFields (s : State) : State := { s with f := fillFrame s.mode s.now.srcData s.f }

/-- The window offsets: SUM adds `F[4]` to `F[15]` (R85, R90). -/
def inWindow (i : FrameOffset) : Bool := 4 ≤ i.val && i.val ≤ 15

/-- `IDX + 1`, for an IDX below 16 (R12). -/
def nextOffset (i : FrameOffset) (h : i.val < 16) : FrameOffset := ⟨i.val + 1, by omega⟩

/-! ### The entry to ABORT and the reset -/

/-- `raise TransportError(op)`: EOP <- op and ST <- ABORT, nothing else; IDX stays (R151, R142, R143). `op` is false for
a failed write and true for a failed drain. -/
def State.raiseTransportError (s : State) (op : Bool) : State := { s with eop := op, st := .abort }

/-- The writes of a step with `rst = 1`; `F` unchanged (R165). The only way out of ABORT and DONE. -/
def State.resetRegisters (s : State) : State :=
  { s with st := .idle, idx := 0, acc := 0, mode := .stream, underrun := false, eop := false }

/-! ### The selection of the operation -/

/-- The select word `{ST, IDX}`: the block's program counter (R12, R57). -/
def State.selectWord (s : State) : BitVec 9 := Sys2Proof.selectWord s.st s.idx

/-- The input condition the state samples at this step (R56). -/
def State.cond (s : State) : Cond := sampleCond s.st s.now

/-- The operation of this step: the select word and the input condition, decoded by the rows of R56. -/
def State.fetch (s : State) : Except DecodeError Instr := decodeOp s.selectWord s.cond

/-- What a step does around the operation: where it answers a next state, the step event has passed. -/
def advanceOutcome : Host.Outcome State Fault Refusal → Host.Outcome State Fault Refusal
  | .next t => .next t.advance
  | .fault r => .fault r
  | .refused r => .refused r

/-! ### Placing an operation where the next step selects it (log 7, 8) -/

/-- All input ports low. -/
def quiet : Inputs where
  rst := false
  start := false
  mode := false
  srcHasNext := false
  srcData := 0
  srcShort := false
  txAccept := false
  txDrained := false
  txErr := false

/-- The state of the block an operation is selected in, the lowest IDX at which it is, and the levels that select it.
RESET is selected in every state; IDLE stands for them. An FB operation is performed inside LOAD or CSUM. -/
def placement : Instr → Phase × FrameOffset × Inputs
  | .reset => (.idle, 0, { quiet with rst := true })
  | .start => (.idle, 0, { quiet with start := true })
  | .idleWait => (.idle, 0, quiet)
  | .pollMore => (.poll, 0, { quiet with srcHasNext := true })
  | .pollEnd => (.poll, 0, quiet)
  | .load => (.load, 0, quiet)
  | .sum => (.sum, 4, quiet)
  | .csum => (.csum, 15, quiet)
  | .writeFail => (.write, 0, { quiet with txErr := true })
  | .writeOk => (.write, 0, { quiet with txAccept := true })
  | .writeWait => (.write, 0, quiet)
  | .drainFail => (.drain, 0, { quiet with txErr := true })
  | .drainNext => (.drain, 0, { quiet with txDrained := true })
  | .drainLast => (.drain, 16, { quiet with txDrained := true })
  | .drainWait => (.drain, 0, quiet)
  | .doneHold => (.done, 0, quiet)
  | .abortHold => (.abort, 0, quiet)
  | .fsSync1 => (.load, 0, { quiet with srcData := 0x55 })
  | .fsSync2 => (.load, 0, { quiet with srcData := 0xAA <<< 8 })
  | .fsType => (.load, 0, { quiet with srcData := 0x82 <<< 16 })
  | .fsLen => (.load, 0, { quiet with srcData := 0x0C <<< 24 })
  | .fsDir d => (.load, 0, { quiet with srcData := d.setWidth 128 <<< 32 })
  | .fsSeq => (.load, 0, quiet)
  | .fsXlo x => (.load, 0, { quiet with srcData := x.setWidth 128 <<< 48 })
  | .fsXhi x => (.load, 0, { quiet with srcData := x.setWidth 128 <<< 56 })
  | .fsYlo y => (.load, 0, { quiet with srcData := y.setWidth 128 <<< 64 })
  | .fsYhi y => (.load, 0, { quiet with srcData := y.setWidth 128 <<< 72 })
  | .fsZlo => (.load, 0, quiet)
  | .fsZhi => (.load, 0, quiet)
  | .fsModeb => (.load, 0, { quiet with srcData := 0xB0 <<< 96 })
  | .fsXtilt => (.load, 0, quiet)
  | .fsYtilt => (.load, 0, quiet)
  | .fsNpts => (.load, 0, { quiet with srcData := 0x01 <<< 120 })
  | .fsCs _ => (.csum, 15, quiet)

/-- The accumulator an operation is placed with: the byte of FS.CS comes from it (R84); else unchanged. -/
def placedAcc (i : Instr) (a : BitVec 12) : BitVec 12 :=
  match i with
  | .fsCs c => c.setWidth 12
  | _ => a

/-- The IDX of a placed operation: the one its select word names where that word selects the operation and SUM is
inside the window, else the lowest IDX of `placement`. -/
def placedIdx (i : Instr) (w : Nat) : FrameOffset :=
  let p := placement i
  let n : Nat := w % 32
  if h : n < 17 then
    if decodeOp (Sys2Proof.selectWord p.1 ⟨n, h⟩) (sampleCond p.1 p.2.2) = .ok i ∧
        w / 32 = p.1.code.toNat ∧ (i = .sum → inWindow ⟨n, h⟩ = true) then ⟨n, h⟩
    else p.2.1
  else p.2.1

/-- The state with the operation placed where the next step selects it, from the table word `w` that names it. -/
def State.place (s : State) (i : Instr) (w : Nat) : State :=
  let p := placement i
  { s with st := p.1, idx := placedIdx i w, acc := placedAcc i s.acc, inputs := p.2.2 :: s.inputs }

end Sys2Proof.Machine
end

