-- ==== Sys2Proof/Machine/Driver.lean ====
section
/-!
DEFINITION. The driver loop's operations: RESET, START, IDLE.WAIT, POLL.MORE, POLL.END, DONE.HOLD, ABORT.HOLD. Each
meaning is the writes of its rule; which operation a step performs is the decoder's to say (log 6).
-/

namespace Sys2Proof.Machine

/-- RESET (R165): every register but `F` at its reset value, no event. -/
def execReset (s : State) : Host.Outcome State Fault Refusal := .next s.resetRegisters

/-- START (R121): MODE <- mode, ST <- POLL. -/
def execStart (s : State) : Host.Outcome State Fault Refusal :=
  .next ((s.setMode (modeOfBit s.now.mode)).goto .poll)

/-- IDLE.WAIT (R124): nothing changes. -/
def execIdleWait (s : State) : Host.Outcome State Fault Refusal := .next s

/-- POLL.MORE (R122): ST <- LOAD. -/
def execPollMore (s : State) : Host.Outcome State Fault Refusal := .next (s.goto .load)

/-- POLL.END (R122, R141): ST <- DONE, event Exhausted. -/
def execPollEnd (s : State) : Host.Outcome State Fault Refusal := .next ((s.goto .done).record .exhausted)

/-- DONE.HOLD (R127): nothing changes. -/
def execDoneHold (s : State) : Host.Outcome State Fault Refusal := .next s

/-- ABORT.HOLD (R155): nothing changes; there is no return. -/
def execAbortHold (s : State) : Host.Outcome State Fault Refusal := .next s

end Sys2Proof.Machine
end

