-- ==== Sys2Proof/Machine/Encoder.lean ====
section
/-!
DEFINITION. The frame encoder's operations: LOAD, SUM, CSUM.
-/

namespace Sys2Proof.Machine

/-- LOAD (R66, R67, R123, R144): the sixteen selected bytes, ACC <- 0, IDX <- 4, UNDERRUN | src_short, ST <- SUM, event
Next(src_data). -/
def execLoad (s : State) : Host.Outcome State Fault Refusal :=
  .next (((((s.fillFields.setAcc 0).setIdx 4).noteUnderrun s.now.srcShort).goto .sum).record (.next s.now.srcData))

/-- SUM (R85): ACC <- ACC + zext_12(F[IDX]); at IDX 15 to CSUM with IDX unchanged, else IDX + 1. Outside the window the
spec gives no behaviour (R59). -/
def execSum (s : State) : Host.Outcome State Fault Refusal :=
  if h : 4 ≤ s.idx.val ∧ s.idx.val ≤ 15 then
    let t := s.setAcc (s.acc + s.byteAtIdx.setWidth 12)
    if s.idx = 15 then .next (t.goto .csum) else .next (t.setIdx (nextOffset s.idx (by omega)))
  else .fault (.unreachableIndex s.st s.idx)

/-- CSUM (R86): F[16] <- ACC[7:0], IDX <- 0, ST <- WRITE. -/
def execCsum (s : State) : Host.Outcome State Fault Refusal :=
  .next (((s.writeF 16 (s.acc.extractLsb' 0 8)).setIdx 0).goto .write)

end Sys2Proof.Machine
end

