-- ==== Sys2Proof/Machine/FieldSelector.lean ====
section
/-!
DEFINITION. The seventeen field-selector operations, one per frame offset (R68 to R84): `F[i]` takes the byte that
`Sel(MODE, i)` names; no flag, no exception, no other register. LOAD performs the sixteen of offsets 0 to 15 at one
step, CSUM performs FS.CS (R56 lines 6 and 8). The byte of an FB word is the bits that come from the input or the
accumulator (R57), so a meaning reads them there and not from the word (log 8).
-/

namespace Sys2Proof.Machine

/-- FS.SYNC1 (R68): F[0] <- 0x55 in STREAM, SrcByte(0) in TABLE. -/
def execFsSync1 (s : State) : Host.Outcome State Fault Refusal := .next (s.selectField 0)

/-- FS.SYNC2 (R69): F[1] <- 0xAA in STREAM, SrcByte(1) in TABLE. -/
def execFsSync2 (s : State) : Host.Outcome State Fault Refusal := .next (s.selectField 1)

/-- FS.TYPE (R70): F[2] <- 0x82 in STREAM, SrcByte(2) in TABLE. -/
def execFsType (s : State) : Host.Outcome State Fault Refusal := .next (s.selectField 2)

/-- FS.LEN (R71): F[3] <- 0x0C in STREAM, SrcByte(3) in TABLE. -/
def execFsLen (s : State) : Host.Outcome State Fault Refusal := .next (s.selectField 3)

/-- FS.DIR (R72): F[4] <- SrcByte(4) in both modes. -/
def execFsDir (_d : Byte) (s : State) : Host.Outcome State Fault Refusal := .next (s.selectField 4)

/-- FS.SEQ (R73): F[5] <- 0x00 in STREAM, SrcByte(5) in TABLE. -/
def execFsSeq (s : State) : Host.Outcome State Fault Refusal := .next (s.selectField 5)

/-- FS.XLO (R74): F[6] <- SrcByte(6) in both modes. -/
def execFsXlo (_x : Byte) (s : State) : Host.Outcome State Fault Refusal := .next (s.selectField 6)

/-- FS.XHI (R75): F[7] <- SrcByte(7) in both modes. -/
def execFsXhi (_x : Byte) (s : State) : Host.Outcome State Fault Refusal := .next (s.selectField 7)

/-- FS.YLO (R76): F[8] <- SrcByte(8) in both modes. -/
def execFsYlo (_y : Byte) (s : State) : Host.Outcome State Fault Refusal := .next (s.selectField 8)

/-- FS.YHI (R77): F[9] <- SrcByte(9) in both modes. -/
def execFsYhi (_y : Byte) (s : State) : Host.Outcome State Fault Refusal := .next (s.selectField 9)

/-- FS.ZLO (R78): F[10] <- 0x00 in STREAM, SrcByte(10) in TABLE. -/
def execFsZlo (s : State) : Host.Outcome State Fault Refusal := .next (s.selectField 10)

/-- FS.ZHI (R79): F[11] <- 0x00 in STREAM, SrcByte(11) in TABLE. -/
def execFsZhi (s : State) : Host.Outcome State Fault Refusal := .next (s.selectField 11)

/-- FS.MODEB (R80): F[12] <- 0xB0 in STREAM, SrcByte(12) in TABLE. -/
def execFsModeb (s : State) : Host.Outcome State Fault Refusal := .next (s.selectField 12)

/-- FS.XTILT (R81): F[13] <- 0x00 in STREAM, SrcByte(13) in TABLE. -/
def execFsXtilt (s : State) : Host.Outcome State Fault Refusal := .next (s.selectField 13)

/-- FS.YTILT (R82): F[14] <- 0x00 in STREAM, SrcByte(14) in TABLE. -/
def execFsYtilt (s : State) : Host.Outcome State Fault Refusal := .next (s.selectField 14)

/-- FS.NPTS (R83): F[15] <- 0x01 in STREAM, SrcByte(15) in TABLE. -/
def execFsNpts (s : State) : Host.Outcome State Fault Refusal := .next (s.selectField 15)

/-- FS.CS (R84): F[16] <- ACC[7:0] in both modes. -/
def execFsCs (_c : Byte) (s : State) : Host.Outcome State Fault Refusal := .next (s.selectField 16)

end Sys2Proof.Machine
end

