-- ==== Sys2Proof/Machine/Transmitter.lean ====
section
/-!
DEFINITION. The byte transmitter's operations: WRITE.FAIL, WRITE.OK, WRITE.WAIT, DRAIN.FAIL, DRAIN.NEXT, DRAIN.LAST,
DRAIN.WAIT.
-/

namespace Sys2Proof.Machine

/-- WRITE.FAIL (R142): TransportError on write, event W(F[IDX], fail). -/
def execWriteFail (s : State) : Host.Outcome State Fault Refusal :=
  .next ((s.raiseTransportError false).record (.write s.byteAtIdx .fail))

/-- WRITE.OK (R101): ST <- DRAIN, event W(F[IDX], ok); IDX unchanged. -/
def execWriteOk (s : State) : Host.Outcome State Fault Refusal :=
  .next ((s.goto .drain).record (.write s.byteAtIdx .ok))

/-- WRITE.WAIT (R101): nothing changes. -/
def execWriteWait (s : State) : Host.Outcome State Fault Refusal := .next s

/-- DRAIN.FAIL (R143): TransportError on drain, event D(fail). -/
def execDrainFail (s : State) : Host.Outcome State Fault Refusal :=
  .next ((s.raiseTransportError true).record (.drain .fail))

/-- DRAIN.NEXT (R105, R106): IDX <- IDX + 1, ST <- WRITE, event D(ok), for an IDX from 0 to 15. -/
def execDrainNext (s : State) : Host.Outcome State Fault Refusal :=
  if h : s.idx.val < 16 then .next (((s.setIdx (nextOffset s.idx h)).goto .write).record (.drain .ok))
  else .fault (.unreachableIndex s.st s.idx)

/-- DRAIN.LAST (R105, R107): IDX <- 0, ST <- POLL, event D(ok). -/
def execDrainLast (s : State) : Host.Outcome State Fault Refusal :=
  .next (((s.setIdx 0).goto .poll).record (.drain .ok))

/-- DRAIN.WAIT (R105): nothing changes. -/
def execDrainWait (s : State) : Host.Outcome State Fault Refusal := .next s

end Sys2Proof.Machine
end

