-- ==== Sys2Proof/Machine/Dispatch.lean ====
section
/-!
DEFINITION. The dispatch: one arm per operation, each one call of its meaning.
-/

namespace Sys2Proof.Machine

def exec (i : Instr) (s : State) : Host.Outcome State Fault Refusal :=
  match i with
  | .reset => Sys2Proof.Machine.execReset s
  | .start => Sys2Proof.Machine.execStart s
  | .idleWait => Sys2Proof.Machine.execIdleWait s
  | .pollMore => Sys2Proof.Machine.execPollMore s
  | .pollEnd => Sys2Proof.Machine.execPollEnd s
  | .load => Sys2Proof.Machine.execLoad s
  | .sum => Sys2Proof.Machine.execSum s
  | .csum => Sys2Proof.Machine.execCsum s
  | .writeFail => Sys2Proof.Machine.execWriteFail s
  | .writeOk => Sys2Proof.Machine.execWriteOk s
  | .writeWait => Sys2Proof.Machine.execWriteWait s
  | .drainFail => Sys2Proof.Machine.execDrainFail s
  | .drainNext => Sys2Proof.Machine.execDrainNext s
  | .drainLast => Sys2Proof.Machine.execDrainLast s
  | .drainWait => Sys2Proof.Machine.execDrainWait s
  | .doneHold => Sys2Proof.Machine.execDoneHold s
  | .abortHold => Sys2Proof.Machine.execAbortHold s
  | .fsSync1 => Sys2Proof.Machine.execFsSync1 s
  | .fsSync2 => Sys2Proof.Machine.execFsSync2 s
  | .fsType => Sys2Proof.Machine.execFsType s
  | .fsLen => Sys2Proof.Machine.execFsLen s
  | .fsDir d => Sys2Proof.Machine.execFsDir d s
  | .fsSeq => Sys2Proof.Machine.execFsSeq s
  | .fsXlo x => Sys2Proof.Machine.execFsXlo x s
  | .fsXhi x => Sys2Proof.Machine.execFsXhi x s
  | .fsYlo y => Sys2Proof.Machine.execFsYlo y s
  | .fsYhi y => Sys2Proof.Machine.execFsYhi y s
  | .fsZlo => Sys2Proof.Machine.execFsZlo s
  | .fsZhi => Sys2Proof.Machine.execFsZhi s
  | .fsModeb => Sys2Proof.Machine.execFsModeb s
  | .fsXtilt => Sys2Proof.Machine.execFsXtilt s
  | .fsYtilt => Sys2Proof.Machine.execFsYtilt s
  | .fsNpts => Sys2Proof.Machine.execFsNpts s
  | .fsCs c => Sys2Proof.Machine.execFsCs c s

end Sys2Proof.Machine
end

