-- ==== Sys2Proof/Machine/Step.lean ====
section
/-!
DEFINITION. One step: the operation that the select word and the sampled inputs name, then the step event passes. And
the state whose next step selects a given table word's operation.
-/

namespace Sys2Proof.Machine

/-- One rising edge of `clk` (R6): the operation of R56, then the next levels come up on the ports. -/
def step (s : State) : Host.Outcome State Fault Refusal :=
  match s.fetch with
  | .ok i => advanceOutcome (exec i s)
  | .error _ => .fault .noOperation

/-- `s` with the operation of a table word placed where the next step selects it (log 7, 8): ST and IDX, the levels of
the next step in front of those already given, and ACC for FS.CS alone. A word that decodes to nothing changes
nothing. -/
def State.withFetchWord (s : State) (nbits w : Nat) : State :=
  match decodeTableWord nbits w with
  | some i => s.place i (w % 2 ^ nbits)
  | none => s

end Sys2Proof.Machine
end

