-- ==== Sys2Proof/Machine/Script.lean ====
section
/-!
DEFINITION. The stimulus scripts and the trace print of the spec (R62, R63, R64): what the environment does, written as
lines, and the closed loop in which it drives the block. None of it is part of the block; the block's step knows only the
levels on its ports.
-/

namespace Sys2Proof.Machine

/-- A line of a stimulus script (R62), the shorthands of R63 among them. -/
inductive Line where
  /-- `RESET`: `rst = 1` for one step. -/
  | reset
  /-- `START STREAM` or `START TABLE`: `start = 1` with `mode` for one step. -/
  | start (m : Mode)
  /-- `REC b0 ... b15`: the next record the source presents, `src_short = 0`. -/
  | record (b : Vector Byte 16)
  /-- `SHORT b0 ... b15`: the same with `src_short = 1`. -/
  | short (b : Vector Byte 16)
  /-- `END`: no further record. -/
  | stop
  /-- `TX OK`: every request is answered `ok` at the first step it is seen. -/
  | txOk
  /-- `TX WAIT n`: every answer comes after `n` extra steps. -/
  | txWait (n : Nat)
  /-- `TX FAIL W f i`: `fail` to the write of offset `i` of frame `f`. -/
  | txFailWrite (f i : Nat)
  /-- `TX FAIL D f i`: `fail` to the drain after offset `i` of frame `f`. -/
  | txFailDrain (f i : Nat)
  /-- `PEN d x y` (R63). -/
  | pen (d : Byte) (x y : BitVec 16)
  /-- `LIT d x y` (R63). -/
  | lit (d : Byte) (x y : BitVec 16)
  /-- `REP n line` (R63). -/
  | rep (n : Nat) (l : Line)
deriving DecidableEq, Repr

/-- The low byte of a 16-bit value. -/
def lowByte (x : BitVec 16) : Byte := x.extractLsb' 0 8

/-- The high byte of a 16-bit value. -/
def highByte (x : BitVec 16) : Byte := x.extractLsb' 8 8

/-- The RawSample of `PEN d x y`: `00 00 00 00 d 00 xl xh yl yh 00 00 00 00 00 00` (R63). -/
def penBytes (d : Byte) (x y : BitVec 16) : Vector Byte 16 :=
  #v[0, 0, 0, 0, d, 0, lowByte x, highByte x, lowByte y, highByte y, 0, 0, 0, 0, 0, 0]

/-- The literal of `LIT d x y`: `55 AA 82 0C d 00 xl xh yl yh 00 00 B0 00 00 01` (R63). -/
def litBytes (d : Byte) (x y : BitVec 16) : Vector Byte 16 :=
  #v[0x55, 0xAA, 0x82, 0x0C, d, 0, lowByte x, highByte x, lowByte y, highByte y, 0, 0, 0xB0, 0, 0, 0x01]

/-- A line without shorthands (R63). -/
def expandLine : Line → List Line
  | .pen d x y => [.record (penBytes d x y)]
  | .lit d x y => [.record (litBytes d x y)]
  | .rep n l => (List.replicate n (expandLine l)).flatten
  | .reset => [.reset]
  | .start m => [.start m]
  | .record b => [.record b]
  | .short b => [.short b]
  | .stop => [.stop]
  | .txOk => [.txOk]
  | .txWait n => [.txWait n]
  | .txFailWrite f i => [.txFailWrite f i]
  | .txFailDrain f i => [.txFailDrain f i]

/-- The transport call a script lets fail: frame number, offset, and true for the drain (R62). -/
structure FailAt where
  frame : Nat
  offset : Nat
  drain : Bool
deriving DecidableEq, Repr

/-- The three environment agents as a script sets them up (R5, R62). -/
structure Bench where
  /-- The host's RESET and START lines still to come, one step each: `none` RESET, `some m` START. -/
  pulses : List (Option Mode)
  /-- The source's records still waiting, each with its `src_short`. -/
  records : List (Vector Byte 16 × Bool)
  /-- The source has been told END: later records are not presented. -/
  closed : Bool
  /-- Steps of `wait` before every answer. -/
  waits : Nat
  /-- The call that fails, if any. -/
  failAt : Option FailAt
  /-- Records the source has handed over. -/
  taken : Nat
  /-- Steps of `wait` given to the outstanding request. -/
  waited : Nat
deriving DecidableEq, Repr

/-- Nothing scripted: no host action, no record, `TX OK`. -/
def Bench.empty : Bench where
  pulses := []
  records := []
  closed := false
  waits := 0
  failAt := none
  taken := 0
  waited := 0

/-- The source gets one more record, unless END has been read. -/
def Bench.addRecord (b : Bench) (r : Vector Byte 16) (short : Bool) : Bench :=
  if b.closed then b else { b with records := b.records ++ [(r, short)] }

/-- Read one line without shorthands. -/
def Bench.addLine (b : Bench) : Line → Bench
  | .reset => { b with pulses := b.pulses ++ [none] }
  | .start m => { b with pulses := b.pulses ++ [some m] }
  | .record r => b.addRecord r false
  | .short r => b.addRecord r true
  | .stop => { b with closed := true }
  | .txOk => { b with waits := 0, failAt := none }
  | .txWait n => { b with waits := n }
  | .txFailWrite f i => { b with failAt := some ⟨f, i, false⟩ }
  | .txFailDrain f i => { b with failAt := some ⟨f, i, true⟩ }
  | .pen d x y => b.addRecord (penBytes d x y) false
  | .lit d x y => b.addRecord (litBytes d x y) false
  | .rep _ _ => b

/-- The bench a script sets up (R62). -/
def benchOf (script : List Line) : Bench := ((script.map expandLine).flatten).foldl Bench.addLine Bench.empty

/-- The outstanding request is the call the script lets fail. -/
def Bench.failsNow (b : Bench) (o : Outputs) : Bool :=
  match b.failAt with
  | none => false
  | some p => p.frame + 1 == b.taken && p.offset == o.idx.toNat && p.drain == o.txDrain

/-- The transport's answer is due: it has waited its steps. -/
def Bench.due (b : Bench) : Bool := b.waits ≤ b.waited

/-- The levels the three agents drive, seeing the block's outputs (R5, R62). -/
def Bench.drive (b : Bench) (o : Outputs) : Inputs where
  rst := b.pulses.head? == some none
  start := match b.pulses with
    | some _ :: _ => true
    | _ => false
  mode := match b.pulses with
    | some m :: _ => modeBit m
    | _ => false
  srcHasNext := !b.records.isEmpty
  srcData := match b.records with
    | r :: _ => packRecord r.1
    | [] => 0
  srcShort := match b.records with
    | r :: _ => r.2
    | [] => false
  txAccept := o.txWrite && b.due && !b.failsNow o
  txDrained := o.txDrain && b.due && !b.failsNow o
  txErr := (o.txWrite || o.txDrain) && b.due && b.failsNow o

/-- The agents after the step: the host's line is over, a record shown with `src_next = 1` is consumed (R123), the
transport has waited one more step or its answer ended the call (R177). -/
def Bench.after (b : Bench) (o : Outputs) : Bench :=
  { b with
    pulses := b.pulses.tail
    records := if o.srcNext then b.records.tail else b.records
    taken := if o.srcNext then b.taken + 1 else b.taken
    waited := if (o.txWrite || o.txDrain) && !b.due then b.waited + 1 else 0 }

/-- `k` steps of the closed loop: the agents drive the ports, the block steps. -/
def runBench : Nat → Bench → State → Host.Outcome State Fault Refusal
  | 0, _, s => .next s
  | k + 1, b, s =>
    match step { s with inputs := [b.drive s.outputs] } with
    | .next t => runBench k (b.after s.outputs) t
    | .fault r => .fault r
    | .refused r => .refused r

/-! ### The trace print (R64) -/

/-- A hexadecimal digit, capital. -/
def hexDigit (n : Nat) : Char := if n < 10 then Char.ofNat (48 + n) else Char.ofNat (55 + n)

/-- A byte as two hexadecimal digits. -/
def hexByte (b : Byte) : List Char := [hexDigit (b.toNat / 16), hexDigit (b.toNat % 16)]

/-- One event: `N`, `Wbb`, `Wbb!`, `D`, `D!`, `X`. -/
def printEvent : Event → List Char
  | .next _ => ['N']
  | .write b .ok => 'W' :: hexByte b
  | .write b .fail => 'W' :: hexByte b ++ ['!']
  | .drain .ok => ['D']
  | .drain .fail => ['D', '!']
  | .exhausted => ['X']

/-- The events in order, one space between two. -/
def printTrace : List Event → List Char
  | [] => []
  | [e] => printEvent e
  | e :: es => printEvent e ++ ' ' :: printTrace es

/-- The name of a state (R10). -/
def phaseName : Phase → String
  | .idle => "IDLE"
  | .poll => "POLL"
  | .load => "LOAD"
  | .sum => "SUM"
  | .csum => "CSUM"
  | .write => "WRITE"
  | .drain => "DRAIN"
  | .done => "DONE"
  | .abort => "ABORT"

/-- A bit as it prints. -/
def printBit (b : Bool) : String := if b then "1" else "0"

/-- The final status, `ST=name IDX=n EOP=b UNDERRUN=b`. -/
def printStatus (s : State) : String :=
  "ST=" ++ phaseName s.st ++ " IDX=" ++ toString s.idx.val ++ " EOP=" ++ printBit s.eop ++ " UNDERRUN=" ++
    printBit s.underrun

end Sys2Proof.Machine
end

