-- ==== Sys2Proof/Safety.lean ====
section
/-!
DEFINITION. What claims are stated in: the invariants of every state a run reaches, the order of events a run may
record, the premises on the environment.
-/

namespace Sys2Proof.Machine

/-! ### Invariants of the registers -/

/-- IDX as R11 lists it: 0 in IDLE, POLL, LOAD and DONE, in the window in SUM, 15 in CSUM. -/
abbrev IndexInv (s : State) : Prop :=
  (s.st = .idle ∨ s.st = .poll ∨ s.st = .load ∨ s.st = .done → s.idx = 0) ∧
  (s.st = .sum → 4 ≤ s.idx.val ∧ s.idx.val ≤ 15) ∧ (s.st = .csum → s.idx = 15)

/-- EOP reads 0 in every state but ABORT (R19). -/
abbrev EopInv (s : State) : Prop := s.eop = true → s.st = .abort

/-- ACC is the exact sum of the window bytes added so far (R85, R88), and from CSUM's step on `F[16] = Ck(F)` (R87). -/
abbrev SumInv (s : State) : Prop :=
  (s.st = .sum → s.acc.toNat = windowSumBelow s.f s.idx.val) ∧
  (s.st = .csum → s.acc.toNat = windowSumBelow s.f 16) ∧
  (s.st = .write ∨ s.st = .drain ∨ s.st = .abort → s.acc.toNat = windowSumBelow s.f 16 ∧ s.f[16] = ck s.f)

/-- While a STREAM frame is in the buffer, its header and constant offsets hold the constants (R94). -/
abbrev ConstantsInv (s : State) : Prop :=
  s.mode = .stream → (s.st = .sum ∨ s.st = .csum ∨ s.st = .write ∨ s.st = .drain ∨ s.st = .abort) →
    frameConstants s.f = true

/-- The invariants together. -/
abbrev Inv (s : State) : Prop := IndexInv s ∧ EopInv s ∧ SumInv s ∧ ConstantsInv s

/-! ### The order of events -/

/-- Where a run stands, read from its events alone: between frames; a record taken and the write of offset `i` the next
call; offset `i` written and its drain the next call; ended at exhaustion; aborted (R109, R111). -/
inductive Progress where
  | between
  | writing (v : Record) (i : FrameOffset)
  | draining (v : Record) (i : FrameOffset)
  | ended
  | aborted
deriving DecidableEq, Repr

/-- The events a run in mode `m` may record next, and where it stands after: `Next` only between frames, then write and
drain in turn, offsets ascending, each byte the byte of the record's frame, nothing after `Exhausted` or a failed
call (R101, R105 to R107, R109, R111, R131, R132, R151). -/
def Progress.after (m : Mode) : Progress → Event → Option Progress
  | .between, .next v => some (.writing v 0)
  | .between, .exhausted => some .ended
  | .writing v i, .write b .ok => if b = (encodeFrame m v)[i] then some (.draining v i) else none
  | .writing v i, .write b .fail => if b = (encodeFrame m v)[i] then some .aborted else none
  | .draining v i, .drain .ok => if h : i.val < 16 then some (.writing v (nextOffset i h)) else some .between
  | .draining _ _, .drain .fail => some .aborted
  | _, _ => none

/-- Where a run in mode `m` stands after the events of a trace; none where the trace breaks the order. -/
def progressOf (m : Mode) (es : List Event) : Option Progress := es.foldlM (Progress.after m) .between

/-- The state and the trace of a run without a reset agree: the trace keeps the order of events, the buffer holds the
bytes of the frame of the record taken, and ACC the sum so far. -/
def RunInv (s : State) : Prop :=
  match s.st with
  | .idle => s.trace = []
  | .poll => progressOf s.mode s.trace = some .between
  | .load => progressOf s.mode s.trace = some .between
  | .sum => ∃ v, progressOf s.mode s.trace = some (.writing v 0) ∧ s.f = fillFrame s.mode v s.f ∧
      (4 ≤ s.idx.val ∧ s.idx.val ≤ 15) ∧ s.acc.toNat = windowSumBelow s.f s.idx.val
  | .csum => ∃ v, progressOf s.mode s.trace = some (.writing v 0) ∧ s.f = fillFrame s.mode v s.f ∧
      s.acc.toNat = windowSumBelow s.f 16
  | .write => ∃ v, progressOf s.mode s.trace = some (.writing v s.idx) ∧ s.f = encodeFrame s.mode v
  | .drain => ∃ v, progressOf s.mode s.trace = some (.draining v s.idx) ∧ s.f = encodeFrame s.mode v
  | .done => progressOf s.mode s.trace = some .ended
  | .abort => progressOf s.mode s.trace = some .aborted

/-- The seventeen writes and drains of one frame, in the order of R109. -/
def frameEvents (f : Frame) : List Event := f.toList.flatMap (fun b => [.write b .ok, .drain .ok])

/-- The events of a run over the records `vs` in mode `m` with no fault (R130). -/
def runEvents (m : Mode) (vs : List Record) : List Event :=
  vs.flatMap (fun v => .next v :: frameEvents (encodeFrame m v)) ++ [.exhausted]

/-- A script that starts a run in mode `m` over the given records, each with its `src_short`, and lets the transport
wait `n` steps before every answer (R62). -/
def recordScript (m : Mode) (rs : List (Vector Byte 16 × Bool)) (n : Nat) : List Line :=
  .start m :: rs.map (fun r => if r.2 then .short r.1 else .record r.1) ++ [.stop, .txWait n]

/-! ### Premises on the environment -/

/-- `k` steps, ending at the first fault or refusal. -/
def runSteps : Nat → State → Host.Outcome State Fault Refusal
  | 0, s => .next s
  | k + 1, s =>
    match step s with
    | .next t => runSteps k t
    | .fault r => .fault r
    | .refused r => .refused r

/-- The levels on the input ports `k` steps from now, given or free. -/
def State.levelsAt (s : State) (k : Nat) : Inputs :=
  State.now { s with inputs := s.inputs.drop k, tick := s.tick + k }

/-- No reset at this step (D2: a claim about a run takes `rst = 0` throughout as a premise). -/
abbrev NoReset (x : Inputs) : Prop := x.rst = false

/-- The transport answers this step's request at once, without a fault (R62, `TX OK`). -/
abbrev AnswersOk (x : Inputs) : Prop := x.txErr = false ∧ x.txAccept = true ∧ x.txDrained = true

/-- The transport answers neither call at this step (R51, `wait`). -/
abbrev AnswersNothing (x : Inputs) : Prop := x.txErr = false ∧ x.txAccept = false ∧ x.txDrained = false

/-- Two samples agree on `rst` and, where it is 0, on the inputs that the state `p` samples (R21). -/
def SameSampled (p : Phase) (x y : Inputs) : Prop :=
  x.rst = y.rst ∧
  (x.rst = false →
    match p with
    | .idle => x.start = y.start ∧ (x.start = true → x.mode = y.mode)
    | .poll => x.srcHasNext = y.srcHasNext
    | .load => x.srcData = y.srcData ∧ x.srcShort = y.srcShort
    | .write => x.txErr = y.txErr ∧ (x.txErr = false → x.txAccept = y.txAccept)
    | .drain => x.txErr = y.txErr ∧ (x.txErr = false → x.txDrained = y.txDrained)
    | .sum | .csum | .done | .abort => True)

/-- The source holds the record stable over the POLL step `x` and the LOAD step `y` (R174). -/
abbrev SourceStable (x y : Inputs) : Prop := y.srcData = x.srcData ∧ y.srcShort = x.srcShort

end Sys2Proof.Machine
end

