-- ==== Sys2Proof/Certificates/Slice0/Obligations.lean ====
section
/-!
DEFINITION. The statements for the provers, each with the rule or section of the spec it formalises.
-/

open Sys2Proof Sys2Proof.Machine

/-! ### Encoding and selection -/

/-- Decoding the bytes of a well-formed operation, whatever follows them, gives it back: every one of the 34, the six
FB words with a byte field at each of its 256 values (R57; the condition byte of a word is the model's, log 9). -/
def Obligations.EncodeDecodeRoundTrip : Prop :=
  ∀ (i : Instr) (rest : List Byte), i.wf = true → decodeBytes (encode i ++ rest) = .ok (i, rest)

/-- Words written out from the masks and patterns of R57 decode to the operations they stand for, one of each family. -/
def Obligations.SpecWordsDecode : Prop :=
  decodeOp 0b000000000 .go = .ok .start ∧ decodeOp 0b001000000 .go = .ok .load ∧
  decodeOp 0b001101111 .go = .ok .sum ∧ decodeOp 0b010100110 .fail = .ok .writeFail ∧
  decodeOp 0b011010000 .go = .ok .drainLast ∧ decodeOp 0b011001111 .go = .ok .drainNext ∧
  decodeOp 0b100010000 .reset = .ok .reset ∧ decodeField 0b0000001010101 = .ok .fsSync1 ∧
  decodeField 0b0010000000111 = .ok (.fsDir 0x07) ∧ decodeField 0b1000011010100 = .ok (.fsCs 0xD4)

/-- An FB word of a copied offset names its operation at every byte, one of a constant offset at the constant alone,
and no word of an offset above 16 names one (R57, R39). -/
def Obligations.FieldWordsNameTheirOffset : Prop :=
  ∀ b : Byte,
    decodeField (fieldWord 0 b) = (if b = 0x55 then .ok .fsSync1 else .error .wrongConstant) ∧
    decodeField (fieldWord 1 b) = (if b = 0xAA then .ok .fsSync2 else .error .wrongConstant) ∧
    decodeField (fieldWord 2 b) = (if b = 0x82 then .ok .fsType else .error .wrongConstant) ∧
    decodeField (fieldWord 3 b) = (if b = 0x0C then .ok .fsLen else .error .wrongConstant) ∧
    decodeField (fieldWord 4 b) = .ok (.fsDir b) ∧
    decodeField (fieldWord 5 b) = (if b = 0x00 then .ok .fsSeq else .error .wrongConstant) ∧
    decodeField (fieldWord 6 b) = .ok (.fsXlo b) ∧ decodeField (fieldWord 7 b) = .ok (.fsXhi b) ∧
    decodeField (fieldWord 8 b) = .ok (.fsYlo b) ∧ decodeField (fieldWord 9 b) = .ok (.fsYhi b) ∧
    decodeField (fieldWord 10 b) = (if b = 0x00 then .ok .fsZlo else .error .wrongConstant) ∧
    decodeField (fieldWord 11 b) = (if b = 0x00 then .ok .fsZhi else .error .wrongConstant) ∧
    decodeField (fieldWord 12 b) = (if b = 0xB0 then .ok .fsModeb else .error .wrongConstant) ∧
    decodeField (fieldWord 13 b) = (if b = 0x00 then .ok .fsXtilt else .error .wrongConstant) ∧
    decodeField (fieldWord 14 b) = (if b = 0x00 then .ok .fsYtilt else .error .wrongConstant) ∧
    decodeField (fieldWord 15 b) = (if b = 0x01 then .ok .fsNpts else .error .wrongConstant) ∧
    decodeField (fieldWord 16 b) = .ok (.fsCs b) ∧
    ∀ o : BitVec 5, 16 < o.toNat → decodeField (o ++ b) = .error .noSuchOffset

/-- At most one OP row matches a select word under one input condition, so the order of R56 matters for RESET alone,
which has a condition of its own (R57). -/
def Obligations.OpRowsDisjoint : Prop :=
  ∀ (w : BitVec 9) (c : Cond) (r1 r2 : OpRow), r1 ∈ opRows → r2 ∈ opRows →
    r1.matches w c = true → r2.matches w c = true → r1 = r2

/-- A select word with a state code from 9 to 15 has no operation but RESET (R58). -/
def Obligations.ReservedStateCodesHaveNoOperation : Prop :=
  ∀ (w : BitVec 9) (c : Cond), 9 ≤ (w.extractLsb' 5 4).toNat → c ≠ .reset → decodeOp w c = .error .noOperation

/-- The operation a step selects is the first line of the decision list that applies, in every state, for all levels on
the ports: the list is total (R56). -/
def Obligations.SelectionFollowsTheDecisionList : Prop :=
  ∀ s : State, s.fetch = .ok (
    if s.now.rst then .reset
    else
      match s.st with
      | .idle => if s.now.start then .start else .idleWait
      | .poll => if s.now.srcHasNext then .pollMore else .pollEnd
      | .load => .load
      | .sum => .sum
      | .csum => .csum
      | .write => if s.now.txErr then .writeFail else if s.now.txAccept then .writeOk else .writeWait
      | .drain =>
        if s.now.txErr then .drainFail
        else if s.now.txDrained then (if s.idx.val < 16 then .drainNext else .drainLast) else .drainWait
      | .done => .doneHold
      | .abort => .abortHold)

/-- A step runs the decoded operation: where the select word under the sampled condition decodes to `i`, the step is
`exec i`, and after a next state the levels just sampled are gone and the counter of free levels has advanced (log 1, 2). -/
def Obligations.StepRunsTheSelectedOperation : Prop :=
  ∀ (s : State) (i : Instr), decodeOp s.selectWord s.cond = .ok i →
    step s =
      match exec i s with
      | .next t => .next { t with inputs := t.inputs.tail, tick := t.tick + 1 }
      | .fault r => .fault r
      | .refused r => .refused r

/-- A placed OP word is the operation of the next step (the model's plumbing, log 7). -/
def Obligations.PlacedOperationIsSelected : Prop :=
  ∀ (s : State) (nbits w : Nat) (i : Instr), decodeTableWord nbits w = some i →
    i ∈ [.reset, .start, .idleWait, .pollMore, .pollEnd, .load, .sum, .csum, .writeFail, .writeOk, .writeWait,
      .drainFail, .drainNext, .drainLast, .drainWait, .doneHold, .abortHold] →
    (s.withFetchWord nbits w).fetch = .ok i

/-! ### Reset -/

/-- RESET is the operation of every step that samples `rst = 1`, whatever ST and the other inputs are; it writes every
register but `F`, records no event, and repeating it repeats the same writes (R165, R148). -/
def Obligations.ResetWritesEverythingButTheFrame : Prop :=
  ∀ s : State,
    exec .reset s =
      .next { s with st := .idle, idx := 0, acc := 0, mode := .stream, underrun := false, eop := false } ∧
    (s.now.rst = true →
      step s = .next { s with
        st := .idle, idx := 0, acc := 0, mode := .stream, underrun := false, eop := false,
        inputs := s.inputs.tail, tick := s.tick + 1 }) ∧
    ∀ t : State, exec .reset s = .next t → t.f = s.f ∧ t.trace = s.trace ∧ exec .reset t = .next t

/-- The reset values the spec gives (R166). `F` is left out: the spec gives it none. -/
def Obligations.StateAfterReset : Prop :=
  State.reset.st = .idle ∧ State.reset.idx = 0 ∧ State.reset.acc = 0 ∧ State.reset.mode = .stream ∧
  State.reset.underrun = false ∧ State.reset.eop = false

/-- The outputs after a reset, from any state, and in State.reset (R168). -/
def Obligations.OutputsAfterReset : Prop :=
  ∀ s t : State, (exec .reset s = .next t ∨ t = State.reset) →
    t.outputs = { srcNext := false, txWrite := false, txData := 0x00, txDrain := false, busy := false, done := false,
                  err := false, underrun := false, eop := false, st := 0, idx := 0 } ∧
    t.outputs.status = 0x0000

/-! ### The driver loop -/

/-- START: MODE <- mode, ST <- POLL, nothing else; selected in IDLE by `start = 1` where `rst = 0` (R121). -/
def Obligations.StartLatchesModeAndPolls : Prop :=
  ∀ s : State,
    exec .start s = .next { s with mode := if s.now.mode then .table else .stream, st := .poll } ∧
    (s.st = .idle → s.now.start = true →
      (s.now.rst = false → step s = .next { s with
        mode := if s.now.mode then .table else .stream, st := .poll, inputs := s.inputs.tail, tick := s.tick + 1 }) ∧
      (s.now.rst = true → s.fetch = .ok .reset))

/-- IDLE.WAIT changes nothing; in IDLE as reset leaves it all outputs are 0 (R124). -/
def Obligations.IdleWaitsForStart : Prop :=
  ∀ s : State,
    exec .idleWait s = .next s ∧
    (s.st = .idle → s.now.rst = false → s.now.start = false →
      step s = .next { s with inputs := s.inputs.tail, tick := s.tick + 1 }) ∧
    (s.st = .idle → s.idx = 0 → s.underrun = false → s.eop = false → s.outputs.status = 0x0000 ∧
      s.outputs.srcNext = false ∧ s.outputs.txWrite = false ∧ s.outputs.txData = 0x00 ∧ s.outputs.txDrain = false)

/-- POLL takes one step: to LOAD where the source has more, to DONE with the event Exhausted where it has not; all other
state unchanged (R122). -/
def Obligations.PollAsksTheSourceOnce : Prop :=
  ∀ s : State,
    exec .pollMore s = .next { s with st := .load } ∧
    exec .pollEnd s = .next { s with st := .done, trace := s.trace ++ [.exhausted] } ∧
    (s.st = .poll → s.now.rst = false →
      (s.now.srcHasNext = true →
        step s = .next { s with st := .load, inputs := s.inputs.tail, tick := s.tick + 1 }) ∧
      (s.now.srcHasNext = false →
        step s = .next { s with st := .done, trace := s.trace ++ [.exhausted],
                                inputs := s.inputs.tail, tick := s.tick + 1 }))

/-- DONE is left by RESET alone: every other step changes nothing but the model's levels; `done` is 1, `busy`, `err` and
every handshake output 0 (R127). -/
def Obligations.DoneIsTerminal : Prop :=
  ∀ s : State,
    exec .doneHold s = .next s ∧
    (s.st = .done →
      (s.now.rst = false → step s = .next { s with inputs := s.inputs.tail, tick := s.tick + 1 }) ∧
      s.outputs.done = true ∧ s.outputs.busy = false ∧ s.outputs.err = false ∧ s.outputs.srcNext = false ∧
      s.outputs.txWrite = false ∧ s.outputs.txDrain = false ∧ s.outputs.txData = 0x00)

/-- The empty run: from IDLE with `start`, then `src_has_next = 0`, the trace gains Exhausted alone, no port of the
transport moves, and the run ends in DONE (R129). -/
def Obligations.EmptyRun : Prop :=
  ∀ s : State, s.st = .idle → s.idx = 0 → NoReset (s.levelsAt 0) → NoReset (s.levelsAt 1) →
    (s.levelsAt 0).start = true → (s.levelsAt 1).srcHasNext = false →
    ∃ t1 t2 : State, step s = .next t1 ∧ step t1 = .next t2 ∧ t2.st = .done ∧ t2.idx = 0 ∧ t2.eop = s.eop ∧
      t2.underrun = s.underrun ∧ t2.f = s.f ∧ t2.acc = s.acc ∧ t2.trace = s.trace ++ [.exhausted] ∧
      ∀ u ∈ [s, t1, t2], u.outputs.txWrite = false ∧ u.outputs.txDrain = false ∧ u.outputs.srcNext = false

/-! ### The encoder -/

/-- LOAD in STREAM mode, every write of it (R66). -/
def Obligations.LoadStreamFillsTheTemplate : Prop :=
  ∀ s : State, s.mode = .stream →
    ∃ t : State, exec .load s = .next t ∧
      t.f[0] = 0x55 ∧ t.f[1] = 0xAA ∧ t.f[2] = 0x82 ∧ t.f[3] = 0x0C ∧
      t.f[4] = srcByte s.now.srcData 4 ∧ t.f[5] = 0x00 ∧ t.f[6] = srcByte s.now.srcData 6 ∧
      t.f[7] = srcByte s.now.srcData 7 ∧ t.f[8] = srcByte s.now.srcData 8 ∧ t.f[9] = srcByte s.now.srcData 9 ∧
      t.f[10] = 0x00 ∧ t.f[11] = 0x00 ∧ t.f[12] = 0xB0 ∧ t.f[13] = 0x00 ∧ t.f[14] = 0x00 ∧ t.f[15] = 0x01 ∧
      t.f[16] = s.f[16] ∧
      t = { s with
        f := t.f, acc := 0, idx := 4, underrun := s.underrun || s.now.srcShort, st := .sum,
        trace := s.trace ++ [.next s.now.srcData] }

/-- LOAD in TABLE mode, every write of it (R67). -/
def Obligations.LoadTablePassesTheLiteral : Prop :=
  ∀ s : State, s.mode = .table →
    ∃ t : State, exec .load s = .next t ∧ (∀ (i : Nat) (h : i < 16), t.f[i] = srcByte s.now.srcData i) ∧
      t = { s with
        f := t.f, acc := 0, idx := 4, underrun := s.underrun || s.now.srcShort, st := .sum,
        trace := s.trace ++ [.next s.now.srcData] } ∧
      t.f[16] = s.f[16]

/-- The four header fields: a constant in STREAM, the same-index source byte in TABLE; nothing else written; outside the
checksum window (R68 to R71). -/
def Obligations.HeaderFieldsTakeTheirByte : Prop :=
  ∀ s : State,
    exec .fsSync1 s = .next (s.writeF 0 (if s.mode = .stream then 0x55 else srcByte s.now.srcData 0)) ∧
    exec .fsSync2 s = .next (s.writeF 1 (if s.mode = .stream then 0xAA else srcByte s.now.srcData 1)) ∧
    exec .fsType s = .next (s.writeF 2 (if s.mode = .stream then 0x82 else srcByte s.now.srcData 2)) ∧
    exec .fsLen s = .next (s.writeF 3 (if s.mode = .stream then 0x0C else srcByte s.now.srcData 3)) ∧
    ∀ (i : FrameOffset) (b : Byte), i.val < 4 → (s.writeF i b) = { s with f := s.f.set i b } ∧
      ck (s.writeF i b).f = ck s.f

/-- The five copied fields: the source byte in both modes; nothing else written; in the checksum window (R72, R74 to R77).
That the byte of the FB word does not matter is the model's reading (log 8, DEDUCED): the meaning reads src_data. -/
def Obligations.CopiedFieldsTakeTheSourceByte : Prop :=
  ∀ (s : State) (w : Byte),
    exec (.fsDir w) s = .next { s with f := s.f.set 4 (srcByte s.now.srcData 4) } ∧
    exec (.fsXlo w) s = .next { s with f := s.f.set 6 (srcByte s.now.srcData 6) } ∧
    exec (.fsXhi w) s = .next { s with f := s.f.set 7 (srcByte s.now.srcData 7) } ∧
    exec (.fsYlo w) s = .next { s with f := s.f.set 8 (srcByte s.now.srcData 8) } ∧
    exec (.fsYhi w) s = .next { s with f := s.f.set 9 (srcByte s.now.srcData 9) } ∧
    ∀ (i : FrameOffset) (b : Byte), i.val ∈ [4, 6, 7, 8, 9] → ck (s.f.set i b) = ck s.f - s.f[i] + b

/-- The seven constant payload fields: a constant in STREAM, the same-index source byte in TABLE; nothing else written;
in the checksum window (R73, R78 to R83). -/
def Obligations.ConstantPayloadFieldsTakeTheirByte : Prop :=
  ∀ s : State,
    exec .fsSeq s = .next { s with f := s.f.set 5 (if s.mode = .stream then 0x00 else srcByte s.now.srcData 5) } ∧
    exec .fsZlo s = .next { s with f := s.f.set 10 (if s.mode = .stream then 0x00 else srcByte s.now.srcData 10) } ∧
    exec .fsZhi s = .next { s with f := s.f.set 11 (if s.mode = .stream then 0x00 else srcByte s.now.srcData 11) } ∧
    exec .fsModeb s = .next { s with f := s.f.set 12 (if s.mode = .stream then 0xB0 else srcByte s.now.srcData 12) } ∧
    exec .fsXtilt s = .next { s with f := s.f.set 13 (if s.mode = .stream then 0x00 else srcByte s.now.srcData 13) } ∧
    exec .fsYtilt s = .next { s with f := s.f.set 14 (if s.mode = .stream then 0x00 else srcByte s.now.srcData 14) } ∧
    exec .fsNpts s = .next { s with f := s.f.set 15 (if s.mode = .stream then 0x01 else srcByte s.now.srcData 15) } ∧
    ∀ (i : FrameOffset) (b : Byte), i.val ∈ [5, 10, 11, 12, 13, 14, 15] → ck (s.f.set i b) = ck s.f - s.f[i] + b

/-- FS.CS and CSUM: F[16] <- ACC[7:0]; CSUM also IDX <- 0 and ST <- WRITE, ACC unchanged; the checksum does not cover
itself (R84, R86). That FS.CS does not read the byte of its FB word is the model's reading (log 8, DEDUCED). -/
def Obligations.ChecksumFieldTakesTheLowByte : Prop :=
  ∀ (s : State) (w : Byte),
    exec (.fsCs w) s = .next { s with f := s.f.set 16 (s.acc.extractLsb' 0 8) } ∧
    exec .csum s = .next { s with f := s.f.set 16 (s.acc.extractLsb' 0 8), idx := 0, st := .write } ∧
    (s.acc.extractLsb' 0 8).toNat = s.acc.toNat % 256 ∧ ck (s.f.set 16 (s.acc.extractLsb' 0 8)) = ck s.f

/-- LOAD's frame is what the sixteen field-selector operations of offsets 0 to 15 leave, run one after the other, with
any bytes in their FB words (R56 line 6, R66, R67). That exec of each makes its one write alone and does not read the
byte of its FB word is the model's reading (log 8, DEDUCED). -/
def Obligations.LoadIsTheSixteenFieldOperations : Prop :=
  ∀ (s t : State) (d x1 x2 y1 y2 : Byte), exec .load s = .next t →
    ([.fsSync1, .fsSync2, .fsType, .fsLen, .fsDir d, .fsSeq, .fsXlo x1, .fsXhi x2, .fsYlo y1, .fsYhi y2, .fsZlo,
      .fsZhi, .fsModeb, .fsXtilt, .fsYtilt, .fsNpts] : List Instr).foldl
        (fun (o : Host.Outcome State Fault Refusal) i =>
          match o with
          | .next u => exec i u
          | .fault r => .fault r
          | .refused r => .refused r) (.next s) = .next { s with f := t.f }

/-- SUM at an IDX from 4 to 15: ACC <- ACC + zext_12(F[IDX]); at 15 to CSUM with IDX unchanged, else IDX + 1 and ST
unchanged; nothing else written (40_frame_encoder.md section 4, R85). -/
def Obligations.SumAddsTheWindowByte : Prop :=
  ∀ s : State, 4 ≤ s.idx.val → s.idx.val ≤ 15 →
    (s.idx = 15 → exec .sum s = .next { s with acc := s.acc + s.f[s.idx].setWidth 12, st := .csum }) ∧
    (∀ j : FrameOffset, s.idx.val < 15 → j.val = s.idx.val + 1 →
      exec .sum s = .next { s with acc := s.acc + s.f[s.idx].setWidth 12, idx := j })

/-- SUM at an IDX outside 4 to 15 is stuck: the spec gives these states no behaviour (R59). DRAIN.NEXT at IDX 16 is
stuck: it is the operation for an IDX below 16 (R56 line 13, R57), and the state DRAIN at 16 has another, DRAIN.LAST (R56
line 14). The named fault is the model's choice (log 5). -/
def Obligations.SumOutsideTheWindowIsStuck : Prop :=
  ∀ s : State,
    ((s.idx.val < 4 ∨ 15 < s.idx.val) → exec .sum s = .fault (.unreachableIndex s.st s.idx)) ∧
    (s.idx = 16 → exec .drainNext s = .fault (.unreachableIndex s.st s.idx))

/-- The window sum is at most 3060, below 2^12, so where ACC holds the exact sum so far SUM's addition does not wrap and
ACC holds the exact sum after it (R88). -/
def Obligations.SumNeverOverflows : Prop :=
  (∀ (f : Frame) (n : Nat), windowSumBelow f n ≤ 12 * 255) ∧
  ∀ s t : State, 4 ≤ s.idx.val → s.idx.val ≤ 15 → s.acc.toNat = windowSumBelow s.f s.idx.val →
    exec .sum s = .next t →
    t.acc.toNat = s.acc.toNat + s.f[s.idx].toNat ∧ t.acc.toNat = windowSumBelow t.f (s.idx.val + 1)

/-- Ck is the natural-number sum of bytes 4 to 15 modulo 256; where ACC holds the window's exact sum, F[16] = Ck(F) after
CSUM (R87). -/
def Obligations.ChecksumStoredIsCk : Prop :=
  (∀ f : Frame, (ck f).toNat = (f[4].toNat + f[5].toNat + f[6].toNat + f[7].toNat + f[8].toNat + f[9].toNat +
    f[10].toNat + f[11].toNat + f[12].toNat + f[13].toNat + f[14].toNat + f[15].toNat) % 256) ∧
  ∀ s t : State, s.acc.toNat = windowSumBelow s.f 16 → exec .csum s = .next t → t.f[16] = ck t.f

/-- An accumulator of any width from 8 bits up, wrapping at its own width, gives the same checksum (R89). -/
def Obligations.AccumulatorWidthIsNotObservable : Prop :=
  ∀ (n : Nat) (f : Frame), 8 ≤ n →
    (([f[4], f[5], f[6], f[7], f[8], f[9], f[10], f[11], f[12], f[13], f[14], f[15]] : List Byte).foldl
      (fun (a : BitVec n) b => a + b.setWidth n) 0).setWidth 8 = ck f

/-- The window is offsets 4 to 15 and nothing else: frames that agree there have one checksum whatever their header, and
each window byte counts once (R90). -/
def Obligations.ChecksumWindowIsExact : Prop :=
  (∀ f g : Frame, (∀ i : FrameOffset, 4 ≤ i.val → i.val ≤ 15 → f[i] = g[i]) → ck f = ck g) ∧
  ∀ (f : Frame) (i : FrameOffset) (b : Byte), 4 ≤ i.val → i.val ≤ 15 → ck (f.set i b) = ck f - f[i] + b

/-- The STREAM checksum in closed form, and its change with the direction byte (R92). -/
def Obligations.StreamChecksumClosedForm : Prop :=
  (∀ v : Record, ((encodeFrame .stream v)[16]).toNat = (177 + (srcByte v 4).toNat + (srcByte v 6).toNat +
    (srcByte v 7).toNat + (srcByte v 8).toNat + (srcByte v 9).toNat) % 256) ∧
  (∀ v : Record, (encodeFrame .stream v)[16] = streamChecksum v) ∧
  ∀ (v w : Record) (d : Byte), srcByte w 4 = srcByte v 4 + d →
    (∀ i ∈ [6, 7, 8, 9], srcByte w i = srcByte v i) →
    (encodeFrame .stream w)[16] = (encodeFrame .stream v)[16] + d

/-- Every STREAM frame has the header, the constant payload bytes and the checksum (R94). -/
def Obligations.StreamFramesHoldTheConstants : Prop :=
  ∀ v : Record,
    let f := encodeFrame .stream v
    f[0] = 0x55 ∧ f[1] = 0xAA ∧ f[2] = 0x82 ∧ f[3] = 0x0C ∧ f[5] = 0x00 ∧ f[10] = 0x00 ∧ f[11] = 0x00 ∧
    f[12] = 0xB0 ∧ f[13] = 0x00 ∧ f[14] = 0x00 ∧ f[15] = 0x01 ∧ f[16] = ck f

/-- Every TABLE frame has its checksum; it has the header and constants if and only if the literal satisfies TableWF
(R95). -/
def Obligations.TableFramesHoldTheConstantsIffWellFormed : Prop :=
  ∀ v : Record, (encodeFrame .table v)[16] = ck (encodeFrame .table v) ∧
    (frameConstants (encodeFrame .table v) = true ↔ tableWF v = true)

/-- STREAM frames depend on record bytes 4, 6, 7, 8, 9 alone; in TABLE mode all sixteen bytes matter (R96). -/
def Obligations.StreamIgnoresTheUnusedBytes : Prop :=
  (∀ v w : Record, (∀ i ∈ [4, 6, 7, 8, 9], srcByte v i = srcByte w i) → encodeFrame .stream v = encodeFrame .stream w) ∧
  ∀ (v w : Record) (i : Fin 16), srcByte v i.val ≠ srcByte w i.val → encodeFrame .table v ≠ encodeFrame .table w

/-- Equivalent inputs are the literals that satisfy TableWF and agree with the sample at bytes 4, 6 to 9; they give one
frame in both modes; a well-formed literal gives one frame in both modes (R97). -/
def Obligations.EquivalentInputsEncodeAlike : Prop :=
  (∀ s l : Record, equivalentInputs s l = true ↔
    tableWF l = true ∧ ∀ i ∈ [4, 6, 7, 8, 9], srcByte l i = srcByte s i) ∧
  (∀ s l : Record, equivalentInputs s l = true → encodeFrame .table l = encodeFrame .stream s) ∧
  ∀ l : Record, tableWF l = true → encodeFrame .stream l = encodeFrame .table l

/-- The FB rows name the field of every byte of a STREAM frame and find its eleven constants right (R57). -/
def Obligations.StreamFrameFieldsDecode : Prop :=
  ∀ v : Record, frameFields (encodeFrame .stream v) =
    [.ok .fsSync1, .ok .fsSync2, .ok .fsType, .ok .fsLen, .ok (.fsDir (srcByte v 4)), .ok .fsSeq,
     .ok (.fsXlo (srcByte v 6)), .ok (.fsXhi (srcByte v 7)), .ok (.fsYlo (srcByte v 8)), .ok (.fsYhi (srcByte v 9)),
     .ok .fsZlo, .ok .fsZhi, .ok .fsModeb, .ok .fsXtilt, .ok .fsYtilt, .ok .fsNpts,
     .ok (.fsCs (streamChecksum v))]

/-- From LOAD, fourteen steps without a reset leave `F = Encode(MODE, v)`, `v` the record LOAD sampled, whatever `F`,
ACC, IDX and the other inputs were (R65, R93). -/
def Obligations.EncoderComputesEncode : Prop :=
  ∀ s : State, s.st = .load → (∀ k < 14, NoReset (s.levelsAt k)) →
    ∃ t : State, runSteps 14 s = .next t ∧ t.f = encodeFrame s.mode s.now.srcData ∧ t.st = .write ∧ t.idx = 0 ∧
      t.acc.toNat = windowSumBelow t.f 16 ∧ t.mode = s.mode ∧ t.eop = s.eop ∧
      t.underrun = (s.underrun || s.now.srcShort) ∧ t.trace = s.trace ++ [.next s.now.srcData] ∧
      t.inputs = s.inputs.drop 14 ∧ t.tick = s.tick + 14

/-! ### The transmitter and the faults -/

/-- WRITE: the three answers, their writes and their events, and the request on the ports (R101, R142). -/
def Obligations.WriteTakesTheTransportsAnswer : Prop :=
  ∀ s : State,
    exec .writeFail s =
      .next { s with eop := false, st := .abort, trace := s.trace ++ [.write s.f[s.idx] .fail] } ∧
    exec .writeOk s = .next { s with st := .drain, trace := s.trace ++ [.write s.f[s.idx] .ok] } ∧
    exec .writeWait s = .next s ∧
    (s.st = .write →
      s.outputs.txWrite = true ∧ s.outputs.txData = s.f[s.idx] ∧
      (s.now.rst = false →
        step s = .next (
          if s.now.txErr then
            { s with eop := false, st := .abort, trace := s.trace ++ [.write s.f[s.idx] .fail],
                     inputs := s.inputs.tail, tick := s.tick + 1 }
          else if s.now.txAccept then
            { s with st := .drain, trace := s.trace ++ [.write s.f[s.idx] .ok],
                     inputs := s.inputs.tail, tick := s.tick + 1 }
          else { s with inputs := s.inputs.tail, tick := s.tick + 1 })))

/-- DRAIN: the three answers, their writes and their events, the advance of IDX and the return to POLL, and the request on
the ports (R105, R143). -/
def Obligations.DrainTakesTheTransportsAnswer : Prop :=
  ∀ s : State,
    exec .drainFail s = .next { s with eop := true, st := .abort, trace := s.trace ++ [.drain .fail] } ∧
    (∀ j : FrameOffset, s.idx.val < 16 → j.val = s.idx.val + 1 →
      exec .drainNext s = .next { s with idx := j, st := .write, trace := s.trace ++ [.drain .ok] }) ∧
    exec .drainLast s = .next { s with idx := 0, st := .poll, trace := s.trace ++ [.drain .ok] } ∧
    exec .drainWait s = .next s ∧
    (s.st = .drain →
      s.outputs.txDrain = true ∧ s.outputs.txWrite = false ∧ s.outputs.txData = 0x00 ∧
      (s.now.rst = false →
        (s.now.txErr = true →
          step s = .next { s with eop := true, st := .abort, trace := s.trace ++ [.drain .fail],
                                  inputs := s.inputs.tail, tick := s.tick + 1 }) ∧
        (∀ j : FrameOffset, s.now.txErr = false → s.now.txDrained = true → s.idx.val < 16 → j.val = s.idx.val + 1 →
          step s = .next { s with idx := j, st := .write, trace := s.trace ++ [.drain .ok],
                                  inputs := s.inputs.tail, tick := s.tick + 1 }) ∧
        (s.now.txErr = false → s.now.txDrained = true → s.idx = 16 →
          step s = .next { s with idx := 0, st := .poll, trace := s.trace ++ [.drain .ok],
                                  inputs := s.inputs.tail, tick := s.tick + 1 }) ∧
        (s.now.txErr = false → s.now.txDrained = false →
          step s = .next { s with inputs := s.inputs.tail, tick := s.tick + 1 })))

/-- A fault has priority over an acknowledgement, in WRITE and in DRAIN (R149). -/
def Obligations.FaultBeatsAcknowledgement : Prop :=
  ∀ s : State, s.now.rst = false → s.now.txErr = true →
    (s.st = .write → s.fetch = .ok .writeFail) ∧ (s.st = .drain → s.fetch = .ok .drainFail)

/-- ABORT is left by RESET alone: every other step changes nothing but the model's levels; the outputs of R152
(R155). -/
def Obligations.AbortIsTerminal : Prop :=
  ∀ s : State,
    exec .abortHold s = .next s ∧
    (s.st = .abort →
      (s.now.rst = false → step s = .next { s with inputs := s.inputs.tail, tick := s.tick + 1 }) ∧
      s.outputs.err = true ∧ s.outputs.busy = false ∧ s.outputs.done = false ∧ s.outputs.txWrite = false ∧
      s.outputs.txDrain = false ∧ s.outputs.txData = 0x00 ∧ s.outputs.srcNext = false ∧ s.outputs.st = 8)

/-- Over any number of steps without a reset ABORT keeps the first fault's record and everything else, so no second fault
is taken (60_exceptions.md section 5, R156). -/
def Obligations.AbortKeepsTheFaultRecord : Prop :=
  ∀ (k : Nat) (s : State), s.st = .abort → (∀ j < k, NoReset (s.levelsAt j)) →
    runSteps k s = .next { s with inputs := s.inputs.drop k, tick := s.tick + k }

/-- Over any number of steps without a reset and without an answer, WRITE and DRAIN change nothing: the wait is blocking
and has no bound (41_transmitter.md section 4, R114, R115). -/
def Obligations.WaitsChangeNothing : Prop :=
  ∀ (k : Nat) (s : State), (s.st = .write ∨ s.st = .drain) →
    (∀ j < k, NoReset (s.levelsAt j) ∧ AnswersNothing (s.levelsAt j)) →
    runSteps k s = .next { s with inputs := s.inputs.drop k, tick := s.tick + k }

/-- From WRITE at offset 0, thirty-four steps with every request answered at once send the frame: seventeen writes and
drains in turn, ascending offsets, each byte as the buffer holds it, then POLL with the frame unchanged (R109). -/
def Obligations.TransmitterSendsTheFrame : Prop :=
  ∀ s : State, s.st = .write → s.idx = 0 →
    (∀ k < 34, NoReset (s.levelsAt k) ∧ AnswersOk (s.levelsAt k)) →
    runSteps 34 s = .next { s with
      st := .poll, idx := 0, trace := s.trace ++ frameEvents s.f,
      inputs := s.inputs.drop 34, tick := s.tick + 34 }

/-! ### Every step -/

/-- An input that the state does not sample is ignored, whatever its value (R21). -/
def Obligations.UnsampledInputsAreIgnored : Prop :=
  ∀ (s : State) (x y : Inputs) (rest : List Inputs), SameSampled s.st x y →
    step { s with inputs := x :: rest } = step { s with inputs := y :: rest }

/-- Each register is written by its operations alone (R29's table: R10, R11, R13, R15, R16, R18, R19). -/
def Obligations.RegistersWrittenByTheirOperationsAlone : Prop :=
  ∀ s t : State, step s = .next t →
    (t.idx ≠ s.idx → s.now.rst = true ∨ s.st = .load ∨ s.st = .sum ∨ s.st = .csum ∨ s.st = .drain) ∧
    (t.acc ≠ s.acc → s.now.rst = true ∨ s.st = .load ∨ s.st = .sum) ∧
    (t.mode ≠ s.mode → s.now.rst = true ∨ (s.st = .idle ∧ s.now.start = true)) ∧
    (t.underrun ≠ s.underrun → s.now.rst = true ∨ (s.st = .load ∧ s.now.srcShort = true)) ∧
    (t.eop ≠ s.eop → s.now.rst = true ∨ ((s.st = .write ∨ s.st = .drain) ∧ s.now.txErr = true)) ∧
    (∀ i : FrameOffset, i ≠ 16 → t.f[i] ≠ s.f[i] → s.now.rst = false ∧ s.st = .load) ∧
    (t.f[16] ≠ s.f[16] → s.now.rst = false ∧ s.st = .csum)

/-- UNDERRUN is set by a LOAD step that samples `src_short = 1`, cleared by reset alone, and changes no other state, no
output but `underrun` and no transition (R18). -/
def Obligations.UnderrunIsStickyAndInert : Prop :=
  (∀ s t : State, step s = .next t →
    t.underrun = if s.now.rst then false else if s.st = .load then s.underrun || s.now.srcShort else s.underrun) ∧
  (∀ (s : State) (b : Bool), { s with underrun := b }.outputs = { s.outputs with underrun := b }) ∧
  ∀ (s t : State) (b : Bool), step s = .next t →
    ∃ c : Bool, step { s with underrun := b } = .next { t with underrun := c }

/-- The event a step records, by state and inputs; steps that wait and RESET record nothing (R7, R165). -/
def Obligations.StepRecordsItsEvent : Prop :=
  ∀ s t : State, step s = .next t → t.trace = s.trace ++
    (if s.now.rst then []
     else
       match s.st with
       | .poll => if s.now.srcHasNext then [] else [.exhausted]
       | .load => [.next s.now.srcData]
       | .write =>
         if s.now.txErr then [.write s.f[s.idx] .fail]
         else if s.now.txAccept then [.write s.f[s.idx] .ok] else []
       | .drain => if s.now.txErr then [.drain .fail] else if s.now.txDrained then [.drain .ok] else []
       | .idle => []
       | .sum => []
       | .csum => []
       | .done => []
       | .abort => [])

/-- The outputs are functions of ST and of what it shows; no two requests are raised together; exactly one of idle, busy,
done and err holds (R22, R20). -/
def Obligations.OutputsFollowTheState : Prop :=
  ∀ s : State,
    (s.outputs.srcNext = true ↔ s.st = .load) ∧ (s.outputs.txWrite = true ↔ s.st = .write) ∧
    (s.st = .write → s.outputs.txData = s.f[s.idx]) ∧ (s.st ≠ .write → s.outputs.txData = 0x00) ∧
    (s.outputs.txDrain = true ↔ s.st = .drain) ∧
    (s.outputs.busy = true ↔ s.st ∈ [.poll, .load, .sum, .csum, .write, .drain]) ∧
    (s.outputs.done = true ↔ s.st = .done) ∧ (s.outputs.err = true ↔ s.st = .abort) ∧
    (s.st = .idle ↔ s.outputs.busy = false ∧ s.outputs.done = false ∧ s.outputs.err = false) ∧
    ¬ (s.outputs.busy = true ∧ s.outputs.done = true) ∧ ¬ (s.outputs.busy = true ∧ s.outputs.err = true) ∧
    ¬ (s.outputs.done = true ∧ s.outputs.err = true) ∧
    s.outputs.underrun = s.underrun ∧ s.outputs.eop = s.eop ∧ s.outputs.st = s.st.code ∧
    s.outputs.idx.toNat = s.idx.val ∧
    ¬ (s.outputs.txWrite = true ∧ s.outputs.txDrain = true) ∧
    ¬ (s.outputs.txWrite = true ∧ s.outputs.srcNext = true) ∧
    ¬ (s.outputs.txDrain = true ∧ s.outputs.srcNext = true)

/-- The fields of the STATUS word (R50). -/
def Obligations.StatusWordFields : Prop :=
  ∀ o : Outputs,
    o.status.extractLsb' 0 4 = o.st ∧ o.status.extractLsb' 4 5 = o.idx ∧ o.status.getLsbD 9 = o.eop ∧
    o.status.getLsbD 10 = o.underrun ∧ o.status.getLsbD 11 = o.busy ∧ o.status.getLsbD 12 = o.done ∧
    o.status.getLsbD 13 = o.err ∧ o.status.getLsbD 14 = false ∧ o.status.getLsbD 15 = false

/-- The CTRL group: bit 0 `start`, bit 1 `mode`; the two commands and no other (R49). -/
def Obligations.CtrlCommands : Prop :=
  ∀ x : Inputs, (ctrlWord x).getLsbD 0 = x.start ∧ (ctrlWord x).getLsbD 1 = x.mode ∧
    commandOf (ctrlWord x) = if x.start then (if x.mode then .start .table else .start .stream) else .none

/-- Where IDX is in its range no step stops: with a reset or without, whatever the levels (R56, R59). -/
def Obligations.StepNeverStops : Prop :=
  ∀ s : State, IndexInv s → ∃ t : State, step s = .next t

/-- Every step keeps the invariants: IDX in its range, EOP 0 outside ABORT, ACC the exact sum and F[16] the checksum, a
STREAM frame's constants (R11, R19, R85, R87, R94). -/
def Obligations.InvariantKeptByEveryStep : Prop :=
  ∀ s t : State, Inv s → step s = .next t → Inv t

/-- The invariants hold in the state after reset. -/
def Obligations.InvariantHoldsAtReset : Prop := Inv State.reset

/-- Every step without a reset keeps the order of events: Next between frames alone, writes and drains in turn with
ascending offsets, each byte the byte of the frame of the record taken, nothing after the end (R109, R111, R131, R132,
R151). -/
def Obligations.EventOrderKeptByEveryStep : Prop :=
  ∀ s t : State, NoReset s.now → RunInv s → step s = .next t → RunInv t

/-- The order of events holds in the state after reset. -/
def Obligations.EventOrderHoldsAtReset : Prop := RunInv State.reset

/-- What `F` holds where a frame is not yet loaded is seen nowhere: from IDLE, POLL or LOAD, with any two contents of `F`
and the same levels, any number of steps gives the same outputs, the same events and the same registers but `F` (R167). So
no claim about outputs or events rests on the reset content the model chose (log 4). -/
def Obligations.FrameContentBeforeLoadIsUnobservable : Prop :=
  ∀ (k : Nat) (s : State) (g : Frame), (s.st = .idle ∨ s.st = .poll ∨ s.st = .load) →
    ∃ t u : State, runSteps k s = .next t ∧ runSteps k { s with f := g } = .next u ∧
      u = { t with f := u.f } ∧ u.outputs = t.outputs

/-! ### The block and its environment -/

/-- A run over any records, short ones among them, with any wait before every answer and no fault, ends in DONE with the
trace of R130, UNDERRUN telling whether a record was short (R130, R110, R144; the script's bench is the model's reading of
R62, log 13). -/
def Obligations.ScriptedRunSendsEveryFrame : Prop :=
  ∀ (s : State) (m : Mode) (rs : List (Vector Byte 16 × Bool)) (n : Nat), s.st = .idle → s.idx = 0 →
    ∃ (k : Nat) (t : State), runBench k (benchOf (recordScript m rs n)) s = .next t ∧ t.st = .done ∧ t.idx = 0 ∧
      t.mode = m ∧ t.eop = s.eop ∧ t.underrun = (s.underrun || rs.any (fun r => r.2)) ∧
      t.trace = s.trace ++ runEvents m (rs.map (fun r => packRecord r.1))

/-- Where the source holds the record stable from POLL to LOAD, the record taken is the record offered (R174). -/
def Obligations.RecordOfferedIsRecordTaken : Prop :=
  ∀ (s : State) (x y : Inputs) (rest : List Inputs), s.st = .poll → s.inputs = x :: y :: rest →
    NoReset x → NoReset y → x.srcHasNext = true → SourceStable x y →
    ∃ t : State, runSteps 2 s = .next t ∧ t.st = .sum ∧ t.f = fillFrame s.mode x.srcData s.f ∧
      t.underrun = (s.underrun || x.srcShort) ∧ t.trace = s.trace ++ [.next x.srcData]

/-- Byte `i` of a record is bits `8*i+7 : 8*i`: sixteen bytes pack into one value whose bytes they are, and a value is
packed from its bytes (R35). -/
def Obligations.RecordPacking : Prop :=
  (∀ (b : Vector Byte 16) (i : Fin 16), srcByte (packRecord b) i.val = b[i]) ∧
  ∀ v : Record, packRecord (recordBytes v) = v

/-- `LIT d x y` is the well-formed literal equivalent to `PEN d x y` (R63). -/
def Obligations.PenAndLitAreEquivalent : Prop :=
  ∀ (d : Byte) (x y : BitVec 16), tableWF (packRecord (litBytes d x y)) = true ∧
    equivalentInputs (packRecord (penBytes d x y)) (packRecord (litBytes d x y)) = true
end

