-- ==== Sys2Proof/Laws/Decode.lean ====
section
/-!
SUPPORT. What the decoder answers: for each state and input condition the operation, at every IDX; for each FB row the
operation, at every byte.
-/

namespace Sys2Proof

theorem decodeOp_reset : ∀ w, decodeOp w .reset = .ok .reset := by decide

theorem decodeOp_idle_go : ∀ i, decodeOp (selectWord .idle i) .go = .ok .start := by decide
theorem decodeOp_idle_hold : ∀ i, decodeOp (selectWord .idle i) .hold = .ok .idleWait := by decide
theorem decodeOp_poll_go : ∀ i, decodeOp (selectWord .poll i) .go = .ok .pollMore := by decide
theorem decodeOp_poll_hold : ∀ i, decodeOp (selectWord .poll i) .hold = .ok .pollEnd := by decide
theorem decodeOp_load : ∀ i, decodeOp (selectWord .load i) .go = .ok .load := by decide
theorem decodeOp_sum : ∀ i, decodeOp (selectWord .sum i) .go = .ok .sum := by decide
theorem decodeOp_csum : ∀ i, decodeOp (selectWord .csum i) .go = .ok .csum := by decide
theorem decodeOp_write_fail : ∀ i, decodeOp (selectWord .write i) .fail = .ok .writeFail := by decide
theorem decodeOp_write_go : ∀ i, decodeOp (selectWord .write i) .go = .ok .writeOk := by decide
theorem decodeOp_write_hold : ∀ i, decodeOp (selectWord .write i) .hold = .ok .writeWait := by decide
theorem decodeOp_drain_fail : ∀ i, decodeOp (selectWord .drain i) .fail = .ok .drainFail := by decide
theorem decodeOp_drain_go :
    ∀ i, decodeOp (selectWord .drain i) .go = .ok (if i = 16 then .drainLast else .drainNext) := by decide
theorem decodeOp_drain_hold : ∀ i, decodeOp (selectWord .drain i) .hold = .ok .drainWait := by decide
theorem decodeOp_done : ∀ i, decodeOp (selectWord .done i) .go = .ok .doneHold := by decide
theorem decodeOp_abort : ∀ i, decodeOp (selectWord .abort i) .go = .ok .abortHold := by decide

/-! ### The input condition each state samples (R21, R51, R148) -/

namespace Machine

theorem sampleCond_rst {p : Phase} {x : Inputs} (h : x.rst = true) : sampleCond p x = .reset := by
  simp [sampleCond, h]

theorem sampleCond_idle {x : Inputs} (h : x.rst = false) : sampleCond .idle x = condOfBit x.start := by
  simp [sampleCond, h]

theorem sampleCond_poll {x : Inputs} (h : x.rst = false) : sampleCond .poll x = condOfBit x.srcHasNext := by
  simp [sampleCond, h]

theorem sampleCond_write {x : Inputs} (h : x.rst = false) :
    sampleCond .write x = condOfAnswer (writeAnswer x) := by
  simp [sampleCond, h]

theorem sampleCond_drain {x : Inputs} (h : x.rst = false) :
    sampleCond .drain x = condOfAnswer (drainAnswer x) := by
  simp [sampleCond, h]

theorem sampleCond_load {x : Inputs} (h : x.rst = false) : sampleCond .load x = .go := by simp [sampleCond, h]
theorem sampleCond_sum {x : Inputs} (h : x.rst = false) : sampleCond .sum x = .go := by simp [sampleCond, h]
theorem sampleCond_csum {x : Inputs} (h : x.rst = false) : sampleCond .csum x = .go := by simp [sampleCond, h]
theorem sampleCond_done {x : Inputs} (h : x.rst = false) : sampleCond .done x = .go := by simp [sampleCond, h]
theorem sampleCond_abort {x : Inputs} (h : x.rst = false) : sampleCond .abort x = .go := by simp [sampleCond, h]

end Machine

/-! ### The FB rows at every byte -/

theorem decodeField_dir : ∀ b, decodeField (fieldWord 4 b) = .ok (.fsDir b) := by decide
theorem decodeField_xlo : ∀ b, decodeField (fieldWord 6 b) = .ok (.fsXlo b) := by decide
theorem decodeField_xhi : ∀ b, decodeField (fieldWord 7 b) = .ok (.fsXhi b) := by decide
theorem decodeField_ylo : ∀ b, decodeField (fieldWord 8 b) = .ok (.fsYlo b) := by decide
theorem decodeField_yhi : ∀ b, decodeField (fieldWord 9 b) = .ok (.fsYhi b) := by decide
theorem decodeField_cs : ∀ b, decodeField (fieldWord 16 b) = .ok (.fsCs b) := by decide

end Sys2Proof
end

