-- ==== Sys2Proof/Laws/Frame.lean ====
section
/-!
SUPPORT. The frame as the selector fills it, byte by byte, and the window sum with its step and its bound.
-/

namespace Sys2Proof.Machine

/-- What one offset of a filled frame holds. -/
@[simp] theorem fillFrame_get (m : Mode) (v : Record) (old : Frame) (i : FrameOffset) :
    (fillFrame m v old)[i] = if i = 16 then old[i] else fieldByte m v 0 i := by
  simp [fillFrame]

/-! ### The byte of each offset, by mode (R55) -/

@[simp] theorem fieldByte_stream_sync1 (v : Record) (a : BitVec 12) : fieldByte .stream v a 0 = 0x55 := rfl
@[simp] theorem fieldByte_stream_sync2 (v : Record) (a : BitVec 12) : fieldByte .stream v a 1 = 0xAA := rfl
@[simp] theorem fieldByte_stream_type (v : Record) (a : BitVec 12) : fieldByte .stream v a 2 = 0x82 := rfl
@[simp] theorem fieldByte_stream_len (v : Record) (a : BitVec 12) : fieldByte .stream v a 3 = 0x0C := rfl
@[simp] theorem fieldByte_stream_dir (v : Record) (a : BitVec 12) : fieldByte .stream v a 4 = srcByte v 4 := rfl
@[simp] theorem fieldByte_stream_seq (v : Record) (a : BitVec 12) : fieldByte .stream v a 5 = 0x00 := rfl
@[simp] theorem fieldByte_stream_xlo (v : Record) (a : BitVec 12) : fieldByte .stream v a 6 = srcByte v 6 := rfl
@[simp] theorem fieldByte_stream_xhi (v : Record) (a : BitVec 12) : fieldByte .stream v a 7 = srcByte v 7 := rfl
@[simp] theorem fieldByte_stream_ylo (v : Record) (a : BitVec 12) : fieldByte .stream v a 8 = srcByte v 8 := rfl
@[simp] theorem fieldByte_stream_yhi (v : Record) (a : BitVec 12) : fieldByte .stream v a 9 = srcByte v 9 := rfl
@[simp] theorem fieldByte_stream_zlo (v : Record) (a : BitVec 12) : fieldByte .stream v a 10 = 0x00 := rfl
@[simp] theorem fieldByte_stream_zhi (v : Record) (a : BitVec 12) : fieldByte .stream v a 11 = 0x00 := rfl
@[simp] theorem fieldByte_stream_modeb (v : Record) (a : BitVec 12) : fieldByte .stream v a 12 = 0xB0 := rfl
@[simp] theorem fieldByte_stream_xtilt (v : Record) (a : BitVec 12) : fieldByte .stream v a 13 = 0x00 := rfl
@[simp] theorem fieldByte_stream_ytilt (v : Record) (a : BitVec 12) : fieldByte .stream v a 14 = 0x00 := rfl
@[simp] theorem fieldByte_stream_npts (v : Record) (a : BitVec 12) : fieldByte .stream v a 15 = 0x01 := rfl
@[simp] theorem fieldByte_table_sync1 (v : Record) (a : BitVec 12) : fieldByte .table v a 0 = srcByte v 0 := rfl
@[simp] theorem fieldByte_table_sync2 (v : Record) (a : BitVec 12) : fieldByte .table v a 1 = srcByte v 1 := rfl
@[simp] theorem fieldByte_table_type (v : Record) (a : BitVec 12) : fieldByte .table v a 2 = srcByte v 2 := rfl
@[simp] theorem fieldByte_table_len (v : Record) (a : BitVec 12) : fieldByte .table v a 3 = srcByte v 3 := rfl
@[simp] theorem fieldByte_table_dir (v : Record) (a : BitVec 12) : fieldByte .table v a 4 = srcByte v 4 := rfl
@[simp] theorem fieldByte_table_seq (v : Record) (a : BitVec 12) : fieldByte .table v a 5 = srcByte v 5 := rfl
@[simp] theorem fieldByte_table_xlo (v : Record) (a : BitVec 12) : fieldByte .table v a 6 = srcByte v 6 := rfl
@[simp] theorem fieldByte_table_xhi (v : Record) (a : BitVec 12) : fieldByte .table v a 7 = srcByte v 7 := rfl
@[simp] theorem fieldByte_table_ylo (v : Record) (a : BitVec 12) : fieldByte .table v a 8 = srcByte v 8 := rfl
@[simp] theorem fieldByte_table_yhi (v : Record) (a : BitVec 12) : fieldByte .table v a 9 = srcByte v 9 := rfl
@[simp] theorem fieldByte_table_zlo (v : Record) (a : BitVec 12) : fieldByte .table v a 10 = srcByte v 10 := rfl
@[simp] theorem fieldByte_table_zhi (v : Record) (a : BitVec 12) : fieldByte .table v a 11 = srcByte v 11 := rfl
@[simp] theorem fieldByte_table_modeb (v : Record) (a : BitVec 12) : fieldByte .table v a 12 = srcByte v 12 := rfl
@[simp] theorem fieldByte_table_xtilt (v : Record) (a : BitVec 12) : fieldByte .table v a 13 = srcByte v 13 := rfl
@[simp] theorem fieldByte_table_ytilt (v : Record) (a : BitVec 12) : fieldByte .table v a 14 = srcByte v 14 := rfl
@[simp] theorem fieldByte_table_npts (v : Record) (a : BitVec 12) : fieldByte .table v a 15 = srcByte v 15 := rfl

/-- FS.CS takes the low byte of the accumulator in both modes. -/
@[simp] theorem fieldByte_cs (m : Mode) (v : Record) (a : BitVec 12) : fieldByte m v a 16 = a.extractLsb' 0 8 := by
  cases m <;> rfl

/-- In TABLE mode every offset below 16 takes the byte of the same index. -/
theorem fieldByte_table (v : Record) (a : BitVec 12) (i : FrameOffset) (h : i ≠ 16) :
    fieldByte .table v a i = srcByte v i.val := by
  obtain ⟨n, hn⟩ := i
  have : n < 16 := by
    have : n ≠ 16 := fun e => h (Fin.ext e)
    omega
  interval_cases n <;> rfl

/-- A statement about every frame offset is seventeen statements. -/
theorem forall_offset {P : FrameOffset → Prop}
    (h : P 0 ∧ P 1 ∧ P 2 ∧ P 3 ∧ P 4 ∧ P 5 ∧ P 6 ∧ P 7 ∧ P 8 ∧ P 9 ∧ P 10 ∧ P 11 ∧ P 12 ∧ P 13 ∧ P 14 ∧ P 15 ∧ P 16) :
    ∀ i, P i := by
  obtain ⟨h0, h1, h2, h3, h4, h5, h6, h7, h8, h9, h10, h11, h12, h13, h14, h15, h16⟩ := h
  rintro ⟨n, hn⟩
  interval_cases n <;> assumption

/-- Frames with the same byte at every offset are the same. -/
theorem frame_ext {f g : Frame} (h : ∀ i : FrameOffset, f[i] = g[i]) : f = g :=
  Vector.ext fun i hi => h ⟨i, hi⟩

/-- The selector reads the accumulator at offset 16 alone. -/
theorem fieldByte_acc (m : Mode) (v : Record) (a b : BitVec 12) (i : FrameOffset) (h : i ≠ 16) :
    fieldByte m v a i = fieldByte m v b i := by
  have key : ∀ i : FrameOffset, i ≠ 16 → sel m i ≠ .ck := by cases m <;> decide
  have hi := key i h
  unfold fieldByte
  split <;> simp_all

/-- A window sum does not look past its bound. -/
theorem windowSumBelow_congr (f g : Frame) (n : Nat) (h : ∀ i : Nat, i < n → 4 ≤ i → i ≤ 15 → f[i]? = g[i]?) :
    windowSumBelow f n = windowSumBelow g n := by
  induction n with
  | zero => rfl
  | succ n ih =>
    simp only [windowSumBelow]
    rw [ih (fun i hi => h i (by omega))]
    split
    · rename_i hw
      rw [h n (by omega) hw.1 hw.2]
    · rfl

/-- The sum gains the byte of a window offset. -/
theorem windowSumBelow_window (f : Frame) (i : FrameOffset) (h1 : 4 ≤ i.val) (h2 : i.val ≤ 15) :
    windowSumBelow f (i.val + 1) = windowSumBelow f i.val + f[i].toNat := by
  simp [windowSumBelow, h1, h2]

/-- Each byte adds at most 255, and there are twelve. -/
theorem windowSumBelow_le (f : Frame) (n : Nat) : windowSumBelow f n ≤ 255 * (min n 16 - 4) := by
  induction n with
  | zero => simp [windowSumBelow]
  | succ n ih =>
    simp only [windowSumBelow]
    split
    · have := (f[n]?.getD 0).isLt
      omega
    · omega

/-- Before the window the sum is 0. -/
theorem windowSumBelow_four (f : Frame) : windowSumBelow f 4 = 0 := rfl

/-- The checksum is the whole window's sum modulo 256 (R87). -/
theorem ck_eq_windowSum (f : Frame) : ck f = BitVec.ofNat 8 (windowSumBelow f 16) := by
  simp [ck, windowSumBelow]

/-- The checksum as a sum of bytes that wraps at 8 bits (R89). -/
theorem ck_eq_sum (f : Frame) : ck f = f[4] + f[5] + f[6] + f[7] + f[8] + f[9] + f[10] + f[11] + f[12] + f[13] + f[14] +
    f[15] := by
  apply BitVec.eq_of_toNat_eq
  simp [ck, BitVec.toNat_add]

/-- Writing offset 16 leaves the window's sum alone. -/
theorem windowSumBelow_set_cs (f : Frame) (b : Byte) (n : Nat) :
    windowSumBelow (f.set 16 b) n = windowSumBelow f n := by
  apply windowSumBelow_congr
  intro i _ _ h
  exact Vector.getElem?_set_ne (by decide) (by show 16 ≠ i; omega)

/-- The checksum byte is no part of the window (R84). -/
@[simp] theorem ck_set_cs (f : Frame) (b : Byte) : ck (f.set 16 b) = ck f := by
  simp [ck_eq_windowSum, windowSumBelow_set_cs]

/-- What one offset of an encoded frame holds (R65). -/
theorem encodeFrame_get (m : Mode) (v : Record) (i : FrameOffset) (h : i ≠ 16) :
    (encodeFrame m v)[i] = fieldByte m v 0 i := by
  have h' : i.val ≠ 16 := fun e => h (Fin.ext e)
  simp only [encodeFrame, Fin.getElem_fin]
  rw [Vector.getElem_set_ne _ _ (by omega)]
  simpa [h] using fillFrame_get m v (Vector.replicate 17 0) i

/-- The last byte of an encoded frame is its checksum (R65). -/
theorem encodeFrame_cs (m : Mode) (v : Record) : (encodeFrame m v)[16] = ck (encodeFrame m v) := by
  simp [encodeFrame]

/-- Frames that agree in the window have one checksum (R90). -/
theorem ck_congr (f g : Frame) (h : ∀ i : FrameOffset, 4 ≤ i.val → i.val ≤ 15 → f[i] = g[i]) : ck f = ck g := by
  rw [ck_eq_windowSum, ck_eq_windowSum, windowSumBelow_congr f g 16]
  intro i hi h4 h15
  have := h ⟨i, by omega⟩ h4 h15
  simp only [Fin.getElem_fin] at this
  rw [Vector.getElem?_eq_getElem (by omega), Vector.getElem?_eq_getElem (by omega), this]

/-- What a frame filled over itself holds below offset 16. -/
theorem get_of_fill {m : Mode} {v : Record} {f : Frame} (h : f = fillFrame m v f) (i : FrameOffset) (hi : i ≠ 16) :
    f[i] = fieldByte m v 0 i := by
  have e := congrArg (fun g : Frame => g[i]) h
  simp only [fillFrame_get, hi, if_false] at e
  exact e

/-- A frame is encoded once its first sixteen bytes are the selected ones and its last is its checksum (R65). -/
theorem eq_encodeFrame (m : Mode) (v : Record) (f : Frame) (h1 : f = fillFrame m v f) (h2 : f[16] = ck f) :
    f = encodeFrame m v := by
  have hi : ∀ i : FrameOffset, i ≠ 16 → f[i] = (encodeFrame m v)[i] := fun i hi =>
    (get_of_fill h1 i hi).trans (encodeFrame_get m v i hi).symm
  have hck : ck f = ck (encodeFrame m v) := ck_congr _ _ fun i _ h15 => hi i (by rintro rfl; simp at h15)
  have h16 : f[16] = (encodeFrame m v)[16] := h2.trans (hck.trans (encodeFrame_cs m v).symm)
  apply Vector.ext
  intro i hlt
  by_cases h : i = 16
  · subst h; exact h16
  · exact hi ⟨i, hlt⟩ (by intro e; exact h (congrArg Fin.val e))

/-! ### The accumulator and the finished frame -/

/-- SUM's addition at a window offset is exact where ACC holds the exact sum so far: twelve bytes fit twelve bits (R88). -/
theorem acc_add_exact (a : BitVec 12) (f : Frame) (i : FrameOffset) (h4 : 4 ≤ i.val) (h15 : i.val ≤ 15)
    (ha : a.toNat = windowSumBelow f i.val) :
    (a + f[i].setWidth 12).toNat = windowSumBelow f (i.val + 1) := by
  have hb := windowSumBelow_window f i h4 h15
  have hle := windowSumBelow_le f (i.val + 1)
  have := f[i].isLt
  rw [BitVec.toNat_add, BitVec.toNat_setWidth, Nat.mod_eq_of_lt (a := f[i].toNat) (by omega), Nat.mod_eq_of_lt] <;>
    omega

/-- The low byte of the whole window's sum is the checksum (R86, R87). -/
theorem low_byte_eq_ck (a : BitVec 12) (f : Frame) (h : a.toNat = windowSumBelow f 16) :
    a.extractLsb' 0 8 = ck f := by
  rw [ck_eq_windowSum, ← h]
  apply BitVec.eq_of_toNat_eq
  simp [BitVec.extractLsb'_toNat]

/-- A filled frame with its checksum stored is the encoded frame, whatever it was filled over (R65, R93). -/
theorem set_cs_of_fill {m : Mode} {v : Record} {f g : Frame} (hf : f = fillFrame m v g) :
    f.set 16 (ck f) = encodeFrame m v := by
  apply eq_encodeFrame
  · apply frame_ext
    intro i
    rw [fillFrame_get]
    by_cases e : i = 16
    · simp [e]
    · have := Vector.getElem_set_ne (xs := f) (x := ck f) (i := 16) (j := i.val) (by decide) i.isLt
        (fun q => e (Fin.ext q.symm))
      rw [if_neg e, Fin.getElem_fin, this, ← Fin.getElem_fin f i, hf, fillFrame_get, if_neg e]
  · rw [ck_set_cs]
    exact Vector.getElem_set_self _

end Sys2Proof.Machine
end

