-- ==== Sys2Proof/Laws/PerInstr.lean ====
section
/-!
SUPPORT. The family of statements made per instruction: encoding round trip.
-/

namespace Sys2Proof.Laws.EncodingRoundTrip

/-- The instruction is well formed, and decoding its bytes, whatever follows them, gives it back. -/
def Statement (i : Instr) : Prop := i.wf = true ∧ ∀ rest : List Byte, decodeBytes (encode i ++ rest) = .ok (i, rest)

/-- A word whose decoding is known decodes from its three bytes. -/
theorem of_word {i : Instr} (hw : i.wf = true)
    (h : decodeBytes (encode i) = .ok (i, [])) : Statement i := by
  refine ⟨hw, fun rest => ?_⟩
  simp only [encode, decodeBytes, List.cons_append, List.nil_append] at h ⊢
  split at h
  · cases h
  · split at h
    · simp_all
    · cases h

theorem reset : Statement .reset := of_word rfl (by decide)
theorem start : Statement .start := of_word rfl (by decide)
theorem idleWait : Statement .idleWait := of_word rfl (by decide)
theorem pollMore : Statement .pollMore := of_word rfl (by decide)
theorem pollEnd : Statement .pollEnd := of_word rfl (by decide)
theorem load : Statement .load := of_word rfl (by decide)
theorem sum : Statement .sum := of_word rfl (by decide)
theorem csum : Statement .csum := of_word rfl (by decide)
theorem writeFail : Statement .writeFail := of_word rfl (by decide)
theorem writeOk : Statement .writeOk := of_word rfl (by decide)
theorem writeWait : Statement .writeWait := of_word rfl (by decide)
theorem drainFail : Statement .drainFail := of_word rfl (by decide)
theorem drainNext : Statement .drainNext := of_word rfl (by decide)
theorem drainLast : Statement .drainLast := of_word rfl (by decide)
theorem drainWait : Statement .drainWait := of_word rfl (by decide)
theorem doneHold : Statement .doneHold := of_word rfl (by decide)
theorem abortHold : Statement .abortHold := of_word rfl (by decide)
theorem fsSync1 : Statement .fsSync1 := of_word rfl (by decide)
theorem fsSync2 : Statement .fsSync2 := of_word rfl (by decide)
theorem fsType : Statement .fsType := of_word rfl (by decide)
theorem fsLen : Statement .fsLen := of_word rfl (by decide)
theorem fsDir (d : Byte) : Statement (.fsDir d) :=
  of_word rfl (by revert d; decide)
theorem fsSeq : Statement .fsSeq := of_word rfl (by decide)
theorem fsXlo (x : Byte) : Statement (.fsXlo x) :=
  of_word rfl (by revert x; decide)
theorem fsXhi (x : Byte) : Statement (.fsXhi x) :=
  of_word rfl (by revert x; decide)
theorem fsYlo (y : Byte) : Statement (.fsYlo y) :=
  of_word rfl (by revert y; decide)
theorem fsYhi (y : Byte) : Statement (.fsYhi y) :=
  of_word rfl (by revert y; decide)
theorem fsZlo : Statement .fsZlo := of_word rfl (by decide)
theorem fsZhi : Statement .fsZhi := of_word rfl (by decide)
theorem fsModeb : Statement .fsModeb := of_word rfl (by decide)
theorem fsXtilt : Statement .fsXtilt := of_word rfl (by decide)
theorem fsYtilt : Statement .fsYtilt := of_word rfl (by decide)
theorem fsNpts : Statement .fsNpts := of_word rfl (by decide)
theorem fsCs (c : Byte) : Statement (.fsCs c) :=
  of_word rfl (by revert c; decide)

end Sys2Proof.Laws.EncodingRoundTrip
end

