-- ==== Sys2Proof/Laws/State.lean ====
section
/-!
SUPPORT. One lemma per field per update of the state, true by rfl, so that no proof unfolds a record update.
-/

namespace Sys2Proof.Machine

@[simp] theorem State.advance_st (s : State) : (s.advance).st = s.st := rfl
@[simp] theorem State.advance_idx (s : State) : (s.advance).idx = s.idx := rfl
@[simp] theorem State.advance_acc (s : State) : (s.advance).acc = s.acc := rfl
@[simp] theorem State.advance_mode (s : State) : (s.advance).mode = s.mode := rfl
@[simp] theorem State.advance_underrun (s : State) : (s.advance).underrun = s.underrun := rfl
@[simp] theorem State.advance_eop (s : State) : (s.advance).eop = s.eop := rfl
@[simp] theorem State.advance_f (s : State) : (s.advance).f = s.f := rfl
@[simp] theorem State.advance_inputs (s : State) : (s.advance).inputs = s.inputs.tail := rfl
@[simp] theorem State.advance_tick (s : State) : (s.advance).tick = s.tick + 1 := rfl
@[simp] theorem State.advance_trace (s : State) : (s.advance).trace = s.trace := rfl

@[simp] theorem State.record_st (s : State) (e : Event) : (s.record e).st = s.st := rfl
@[simp] theorem State.record_idx (s : State) (e : Event) : (s.record e).idx = s.idx := rfl
@[simp] theorem State.record_acc (s : State) (e : Event) : (s.record e).acc = s.acc := rfl
@[simp] theorem State.record_mode (s : State) (e : Event) : (s.record e).mode = s.mode := rfl
@[simp] theorem State.record_underrun (s : State) (e : Event) : (s.record e).underrun = s.underrun := rfl
@[simp] theorem State.record_eop (s : State) (e : Event) : (s.record e).eop = s.eop := rfl
@[simp] theorem State.record_f (s : State) (e : Event) : (s.record e).f = s.f := rfl
@[simp] theorem State.record_inputs (s : State) (e : Event) : (s.record e).inputs = s.inputs := rfl
@[simp] theorem State.record_tick (s : State) (e : Event) : (s.record e).tick = s.tick := rfl
@[simp] theorem State.record_trace (s : State) (e : Event) : (s.record e).trace = s.trace ++ [e] := rfl

@[simp] theorem State.goto_st (s : State) (p : Phase) : (s.goto p).st = p := rfl
@[simp] theorem State.goto_idx (s : State) (p : Phase) : (s.goto p).idx = s.idx := rfl
@[simp] theorem State.goto_acc (s : State) (p : Phase) : (s.goto p).acc = s.acc := rfl
@[simp] theorem State.goto_mode (s : State) (p : Phase) : (s.goto p).mode = s.mode := rfl
@[simp] theorem State.goto_underrun (s : State) (p : Phase) : (s.goto p).underrun = s.underrun := rfl
@[simp] theorem State.goto_eop (s : State) (p : Phase) : (s.goto p).eop = s.eop := rfl
@[simp] theorem State.goto_f (s : State) (p : Phase) : (s.goto p).f = s.f := rfl
@[simp] theorem State.goto_inputs (s : State) (p : Phase) : (s.goto p).inputs = s.inputs := rfl
@[simp] theorem State.goto_tick (s : State) (p : Phase) : (s.goto p).tick = s.tick := rfl
@[simp] theorem State.goto_trace (s : State) (p : Phase) : (s.goto p).trace = s.trace := rfl

@[simp] theorem State.setIdx_st (s : State) (i : FrameOffset) : (s.setIdx i).st = s.st := rfl
@[simp] theorem State.setIdx_idx (s : State) (i : FrameOffset) : (s.setIdx i).idx = i := rfl
@[simp] theorem State.setIdx_acc (s : State) (i : FrameOffset) : (s.setIdx i).acc = s.acc := rfl
@[simp] theorem State.setIdx_mode (s : State) (i : FrameOffset) : (s.setIdx i).mode = s.mode := rfl
@[simp] theorem State.setIdx_underrun (s : State) (i : FrameOffset) : (s.setIdx i).underrun = s.underrun := rfl
@[simp] theorem State.setIdx_eop (s : State) (i : FrameOffset) : (s.setIdx i).eop = s.eop := rfl
@[simp] theorem State.setIdx_f (s : State) (i : FrameOffset) : (s.setIdx i).f = s.f := rfl
@[simp] theorem State.setIdx_inputs (s : State) (i : FrameOffset) : (s.setIdx i).inputs = s.inputs := rfl
@[simp] theorem State.setIdx_tick (s : State) (i : FrameOffset) : (s.setIdx i).tick = s.tick := rfl
@[simp] theorem State.setIdx_trace (s : State) (i : FrameOffset) : (s.setIdx i).trace = s.trace := rfl

@[simp] theorem State.setAcc_st (s : State) (a : BitVec 12) : (s.setAcc a).st = s.st := rfl
@[simp] theorem State.setAcc_idx (s : State) (a : BitVec 12) : (s.setAcc a).idx = s.idx := rfl
@[simp] theorem State.setAcc_acc (s : State) (a : BitVec 12) : (s.setAcc a).acc = a := rfl
@[simp] theorem State.setAcc_mode (s : State) (a : BitVec 12) : (s.setAcc a).mode = s.mode := rfl
@[simp] theorem State.setAcc_underrun (s : State) (a : BitVec 12) : (s.setAcc a).underrun = s.underrun := rfl
@[simp] theorem State.setAcc_eop (s : State) (a : BitVec 12) : (s.setAcc a).eop = s.eop := rfl
@[simp] theorem State.setAcc_f (s : State) (a : BitVec 12) : (s.setAcc a).f = s.f := rfl
@[simp] theorem State.setAcc_inputs (s : State) (a : BitVec 12) : (s.setAcc a).inputs = s.inputs := rfl
@[simp] theorem State.setAcc_tick (s : State) (a : BitVec 12) : (s.setAcc a).tick = s.tick := rfl
@[simp] theorem State.setAcc_trace (s : State) (a : BitVec 12) : (s.setAcc a).trace = s.trace := rfl

@[simp] theorem State.setMode_st (s : State) (m : Mode) : (s.setMode m).st = s.st := rfl
@[simp] theorem State.setMode_idx (s : State) (m : Mode) : (s.setMode m).idx = s.idx := rfl
@[simp] theorem State.setMode_acc (s : State) (m : Mode) : (s.setMode m).acc = s.acc := rfl
@[simp] theorem State.setMode_mode (s : State) (m : Mode) : (s.setMode m).mode = m := rfl
@[simp] theorem State.setMode_underrun (s : State) (m : Mode) : (s.setMode m).underrun = s.underrun := rfl
@[simp] theorem State.setMode_eop (s : State) (m : Mode) : (s.setMode m).eop = s.eop := rfl
@[simp] theorem State.setMode_f (s : State) (m : Mode) : (s.setMode m).f = s.f := rfl
@[simp] theorem State.setMode_inputs (s : State) (m : Mode) : (s.setMode m).inputs = s.inputs := rfl
@[simp] theorem State.setMode_tick (s : State) (m : Mode) : (s.setMode m).tick = s.tick := rfl
@[simp] theorem State.setMode_trace (s : State) (m : Mode) : (s.setMode m).trace = s.trace := rfl

@[simp] theorem State.noteUnderrun_st (s : State) (b : Bool) : (s.noteUnderrun b).st = s.st := rfl
@[simp] theorem State.noteUnderrun_idx (s : State) (b : Bool) : (s.noteUnderrun b).idx = s.idx := rfl
@[simp] theorem State.noteUnderrun_acc (s : State) (b : Bool) : (s.noteUnderrun b).acc = s.acc := rfl
@[simp] theorem State.noteUnderrun_mode (s : State) (b : Bool) : (s.noteUnderrun b).mode = s.mode := rfl
@[simp] theorem State.noteUnderrun_underrun (s : State) (b : Bool) : (s.noteUnderrun b).underrun = (s.underrun || b) := rfl
@[simp] theorem State.noteUnderrun_eop (s : State) (b : Bool) : (s.noteUnderrun b).eop = s.eop := rfl
@[simp] theorem State.noteUnderrun_f (s : State) (b : Bool) : (s.noteUnderrun b).f = s.f := rfl
@[simp] theorem State.noteUnderrun_inputs (s : State) (b : Bool) : (s.noteUnderrun b).inputs = s.inputs := rfl
@[simp] theorem State.noteUnderrun_tick (s : State) (b : Bool) : (s.noteUnderrun b).tick = s.tick := rfl
@[simp] theorem State.noteUnderrun_trace (s : State) (b : Bool) : (s.noteUnderrun b).trace = s.trace := rfl

@[simp] theorem State.writeF_st (s : State) (i : FrameOffset) (b : Byte) : (s.writeF i b).st = s.st := rfl
@[simp] theorem State.writeF_idx (s : State) (i : FrameOffset) (b : Byte) : (s.writeF i b).idx = s.idx := rfl
@[simp] theorem State.writeF_acc (s : State) (i : FrameOffset) (b : Byte) : (s.writeF i b).acc = s.acc := rfl
@[simp] theorem State.writeF_mode (s : State) (i : FrameOffset) (b : Byte) : (s.writeF i b).mode = s.mode := rfl
@[simp] theorem State.writeF_underrun (s : State) (i : FrameOffset) (b : Byte) : (s.writeF i b).underrun = s.underrun := rfl
@[simp] theorem State.writeF_eop (s : State) (i : FrameOffset) (b : Byte) : (s.writeF i b).eop = s.eop := rfl
@[simp] theorem State.writeF_f (s : State) (i : FrameOffset) (b : Byte) : (s.writeF i b).f = s.f.set i b := rfl
@[simp] theorem State.writeF_inputs (s : State) (i : FrameOffset) (b : Byte) : (s.writeF i b).inputs = s.inputs := rfl
@[simp] theorem State.writeF_tick (s : State) (i : FrameOffset) (b : Byte) : (s.writeF i b).tick = s.tick := rfl
@[simp] theorem State.writeF_trace (s : State) (i : FrameOffset) (b : Byte) : (s.writeF i b).trace = s.trace := rfl

@[simp] theorem State.selectField_st (s : State) (i : FrameOffset) : (s.selectField i).st = s.st := rfl
@[simp] theorem State.selectField_idx (s : State) (i : FrameOffset) : (s.selectField i).idx = s.idx := rfl
@[simp] theorem State.selectField_acc (s : State) (i : FrameOffset) : (s.selectField i).acc = s.acc := rfl
@[simp] theorem State.selectField_mode (s : State) (i : FrameOffset) : (s.selectField i).mode = s.mode := rfl
@[simp] theorem State.selectField_underrun (s : State) (i : FrameOffset) : (s.selectField i).underrun = s.underrun := rfl
@[simp] theorem State.selectField_eop (s : State) (i : FrameOffset) : (s.selectField i).eop = s.eop := rfl
@[simp] theorem State.selectField_f (s : State) (i : FrameOffset) : (s.selectField i).f = s.f.set i (fieldByte s.mode s.now.srcData s.acc i) := rfl
@[simp] theorem State.selectField_inputs (s : State) (i : FrameOffset) : (s.selectField i).inputs = s.inputs := rfl
@[simp] theorem State.selectField_tick (s : State) (i : FrameOffset) : (s.selectField i).tick = s.tick := rfl
@[simp] theorem State.selectField_trace (s : State) (i : FrameOffset) : (s.selectField i).trace = s.trace := rfl

@[simp] theorem State.fillFields_st (s : State) : (s.fillFields).st = s.st := rfl
@[simp] theorem State.fillFields_idx (s : State) : (s.fillFields).idx = s.idx := rfl
@[simp] theorem State.fillFields_acc (s : State) : (s.fillFields).acc = s.acc := rfl
@[simp] theorem State.fillFields_mode (s : State) : (s.fillFields).mode = s.mode := rfl
@[simp] theorem State.fillFields_underrun (s : State) : (s.fillFields).underrun = s.underrun := rfl
@[simp] theorem State.fillFields_eop (s : State) : (s.fillFields).eop = s.eop := rfl
@[simp] theorem State.fillFields_f (s : State) : (s.fillFields).f = fillFrame s.mode s.now.srcData s.f := rfl
@[simp] theorem State.fillFields_inputs (s : State) : (s.fillFields).inputs = s.inputs := rfl
@[simp] theorem State.fillFields_tick (s : State) : (s.fillFields).tick = s.tick := rfl
@[simp] theorem State.fillFields_trace (s : State) : (s.fillFields).trace = s.trace := rfl

@[simp] theorem State.raiseTransportError_st (s : State) (op : Bool) : (s.raiseTransportError op).st = .abort := rfl
@[simp] theorem State.raiseTransportError_idx (s : State) (op : Bool) : (s.raiseTransportError op).idx = s.idx := rfl
@[simp] theorem State.raiseTransportError_acc (s : State) (op : Bool) : (s.raiseTransportError op).acc = s.acc := rfl
@[simp] theorem State.raiseTransportError_mode (s : State) (op : Bool) : (s.raiseTransportError op).mode = s.mode := rfl
@[simp] theorem State.raiseTransportError_underrun (s : State) (op : Bool) : (s.raiseTransportError op).underrun = s.underrun := rfl
@[simp] theorem State.raiseTransportError_eop (s : State) (op : Bool) : (s.raiseTransportError op).eop = op := rfl
@[simp] theorem State.raiseTransportError_f (s : State) (op : Bool) : (s.raiseTransportError op).f = s.f := rfl
@[simp] theorem State.raiseTransportError_inputs (s : State) (op : Bool) : (s.raiseTransportError op).inputs = s.inputs := rfl
@[simp] theorem State.raiseTransportError_tick (s : State) (op : Bool) : (s.raiseTransportError op).tick = s.tick := rfl
@[simp] theorem State.raiseTransportError_trace (s : State) (op : Bool) : (s.raiseTransportError op).trace = s.trace := rfl

@[simp] theorem State.resetRegisters_st (s : State) : (s.resetRegisters).st = .idle := rfl
@[simp] theorem State.resetRegisters_idx (s : State) : (s.resetRegisters).idx = 0 := rfl
@[simp] theorem State.resetRegisters_acc (s : State) : (s.resetRegisters).acc = 0 := rfl
@[simp] theorem State.resetRegisters_mode (s : State) : (s.resetRegisters).mode = .stream := rfl
@[simp] theorem State.resetRegisters_underrun (s : State) : (s.resetRegisters).underrun = false := rfl
@[simp] theorem State.resetRegisters_eop (s : State) : (s.resetRegisters).eop = false := rfl
@[simp] theorem State.resetRegisters_f (s : State) : (s.resetRegisters).f = s.f := rfl
@[simp] theorem State.resetRegisters_inputs (s : State) : (s.resetRegisters).inputs = s.inputs := rfl
@[simp] theorem State.resetRegisters_tick (s : State) : (s.resetRegisters).tick = s.tick := rfl
@[simp] theorem State.resetRegisters_trace (s : State) : (s.resetRegisters).trace = s.trace := rfl

/-! ### The sampled levels are untouched by every update but the passing of the step -/

@[simp] theorem State.record_now (s : State) (e : Event) : (s.record e).now = s.now := rfl
@[simp] theorem State.goto_now (s : State) (p : Phase) : (s.goto p).now = s.now := rfl
@[simp] theorem State.setIdx_now (s : State) (i : FrameOffset) : (s.setIdx i).now = s.now := rfl
@[simp] theorem State.setAcc_now (s : State) (a : BitVec 12) : (s.setAcc a).now = s.now := rfl
@[simp] theorem State.setMode_now (s : State) (m : Mode) : (s.setMode m).now = s.now := rfl
@[simp] theorem State.noteUnderrun_now (s : State) (b : Bool) : (s.noteUnderrun b).now = s.now := rfl
@[simp] theorem State.writeF_now (s : State) (i : FrameOffset) (b : Byte) : (s.writeF i b).now = s.now := rfl
@[simp] theorem State.selectField_now (s : State) (i : FrameOffset) : (s.selectField i).now = s.now := rfl
@[simp] theorem State.fillFields_now (s : State) : (s.fillFields).now = s.now := rfl
@[simp] theorem State.raiseTransportError_now (s : State) (op : Bool) : (s.raiseTransportError op).now = s.now := rfl
@[simp] theorem State.resetRegisters_now (s : State) : (s.resetRegisters).now = s.now := rfl

/-- The given levels, where there are any. -/
@[simp] theorem State.now_cons (s : State) (x : Inputs) (xs : List Inputs) (h : s.inputs = x :: xs) : s.now = x := by
  simp [State.now, h]

/-- The free levels, where none are given. -/
@[simp] theorem State.now_nil (s : State) (h : s.inputs = []) : s.now = Config.freeInputs s.tick := by
  simp [State.now, h]

/-- Two states with the same fields are the same. -/
@[ext] theorem State.ext_fields {s t : State} (h1 : s.st = t.st) (h2 : s.idx = t.idx) (h3 : s.acc = t.acc)
    (h4 : s.mode = t.mode) (h5 : s.underrun = t.underrun) (h6 : s.eop = t.eop) (h7 : s.f = t.f)
    (h8 : s.inputs = t.inputs) (h9 : s.tick = t.tick) (h10 : s.trace = t.trace) : s = t := by
  cases s; cases t; simp_all

end Sys2Proof.Machine
end

