-- ==== Sys2Proof/Laws/Step.lean ====
section
/-!
SUPPORT. What each state selects, the step of a state whose operation is known, and all that a step can do.
-/

namespace Sys2Proof.Machine

theorem step_of_fetch {s : State} {i : Instr} (h : s.fetch = .ok i) : step s = advanceOutcome (exec i s) := by
  simp only [step, h]

/-- The operation of a state is read from its word under the condition it samples. -/
theorem fetch_of_cond {s : State} {p : Phase} {c : Cond} (hp : s.st = p) (hc : sampleCond p s.now = c) :
    s.fetch = decodeOp (Sys2Proof.selectWord p s.idx) c := by
  subst hp; subst hc; rfl

theorem fetch_rst {s : State} (h : s.now.rst = true) : s.fetch = .ok .reset :=
  (fetch_of_cond rfl (sampleCond_rst h)).trans (decodeOp_reset _)

theorem fetch_idle {s : State} (hp : s.st = .idle) (h : s.now.rst = false) :
    s.fetch = .ok (if s.now.start then .start else .idleWait) := by
  rw [fetch_of_cond hp (sampleCond_idle h)]
  cases s.now.start
  · exact decodeOp_idle_hold _
  · exact decodeOp_idle_go _

theorem fetch_poll {s : State} (hp : s.st = .poll) (h : s.now.rst = false) :
    s.fetch = .ok (if s.now.srcHasNext then .pollMore else .pollEnd) := by
  rw [fetch_of_cond hp (sampleCond_poll h)]
  cases s.now.srcHasNext
  · exact decodeOp_poll_hold _
  · exact decodeOp_poll_go _

theorem fetch_load {s : State} (hp : s.st = .load) (h : s.now.rst = false) : s.fetch = .ok .load :=
  (fetch_of_cond hp (sampleCond_load h)).trans (decodeOp_load _)

theorem fetch_sum {s : State} (hp : s.st = .sum) (h : s.now.rst = false) : s.fetch = .ok .sum :=
  (fetch_of_cond hp (sampleCond_sum h)).trans (decodeOp_sum _)

theorem fetch_csum {s : State} (hp : s.st = .csum) (h : s.now.rst = false) : s.fetch = .ok .csum :=
  (fetch_of_cond hp (sampleCond_csum h)).trans (decodeOp_csum _)

theorem fetch_write {s : State} (hp : s.st = .write) (h : s.now.rst = false) :
    s.fetch = .ok (if s.now.txErr then .writeFail else if s.now.txAccept then .writeOk else .writeWait) := by
  rw [fetch_of_cond hp (sampleCond_write h)]
  unfold writeAnswer
  cases s.now.txErr <;> cases s.now.txAccept
  · exact decodeOp_write_hold _
  · exact decodeOp_write_go _
  · exact decodeOp_write_fail _
  · exact decodeOp_write_fail _

theorem fetch_drain {s : State} (hp : s.st = .drain) (h : s.now.rst = false) :
    s.fetch = .ok (if s.now.txErr then .drainFail
      else if s.now.txDrained then (if s.idx = 16 then .drainLast else .drainNext) else .drainWait) := by
  rw [fetch_of_cond hp (sampleCond_drain h)]
  unfold drainAnswer
  cases s.now.txErr <;> cases s.now.txDrained
  · exact decodeOp_drain_hold _
  · exact decodeOp_drain_go _
  · exact decodeOp_drain_fail _
  · exact decodeOp_drain_fail _

theorem fetch_done {s : State} (hp : s.st = .done) (h : s.now.rst = false) : s.fetch = .ok .doneHold :=
  (fetch_of_cond hp (sampleCond_done h)).trans (decodeOp_done _)

theorem fetch_abort {s : State} (hp : s.st = .abort) (h : s.now.rst = false) : s.fetch = .ok .abortHold :=
  (fetch_of_cond hp (sampleCond_abort h)).trans (decodeOp_abort _)

/-! ### All that a step can do -/

/-- What a step that answers a next state did: its operation, by state and inputs. -/
inductive StepCase (s : State) : State → Prop
  | reset : s.now.rst = true → StepCase s s.resetRegisters.advance
  | start : s.now.rst = false → s.st = .idle → s.now.start = true →
      StepCase s ((s.setMode (modeOfBit s.now.mode)).goto .poll).advance
  | idleWait : s.now.rst = false → s.st = .idle → s.now.start = false → StepCase s s.advance
  | pollMore : s.now.rst = false → s.st = .poll → s.now.srcHasNext = true → StepCase s (s.goto .load).advance
  | pollEnd : s.now.rst = false → s.st = .poll → s.now.srcHasNext = false →
      StepCase s ((s.goto .done).record .exhausted).advance
  | load : s.now.rst = false → s.st = .load →
      StepCase s (((((s.fillFields.setAcc 0).setIdx 4).noteUnderrun s.now.srcShort).goto .sum).record
        (.next s.now.srcData)).advance
  | sumNext (h : s.idx.val < 16) : s.now.rst = false → s.st = .sum → 4 ≤ s.idx.val → s.idx.val < 15 →
      StepCase s ((s.setAcc (s.acc + s.f[s.idx].setWidth 12)).setIdx (nextOffset s.idx h)).advance
  | sumLast : s.now.rst = false → s.st = .sum → s.idx = 15 →
      StepCase s ((s.setAcc (s.acc + s.f[s.idx].setWidth 12)).goto .csum).advance
  | csum : s.now.rst = false → s.st = .csum →
      StepCase s (((s.writeF 16 (s.acc.extractLsb' 0 8)).setIdx 0).goto .write).advance
  | writeFail : s.now.rst = false → s.st = .write → s.now.txErr = true →
      StepCase s ((s.raiseTransportError false).record (.write s.f[s.idx] .fail)).advance
  | writeOk : s.now.rst = false → s.st = .write → s.now.txErr = false → s.now.txAccept = true →
      StepCase s ((s.goto .drain).record (.write s.f[s.idx] .ok)).advance
  | writeWait : s.now.rst = false → s.st = .write → s.now.txErr = false → s.now.txAccept = false →
      StepCase s s.advance
  | drainFail : s.now.rst = false → s.st = .drain → s.now.txErr = true →
      StepCase s ((s.raiseTransportError true).record (.drain .fail)).advance
  | drainNext (h : s.idx.val < 16) : s.now.rst = false → s.st = .drain → s.now.txErr = false →
      s.now.txDrained = true →
      StepCase s (((s.setIdx (nextOffset s.idx h)).goto .write).record (.drain .ok)).advance
  | drainLast : s.now.rst = false → s.st = .drain → s.now.txErr = false → s.now.txDrained = true → s.idx = 16 →
      StepCase s (((s.setIdx 0).goto .poll).record (.drain .ok)).advance
  | drainWait : s.now.rst = false → s.st = .drain → s.now.txErr = false → s.now.txDrained = false →
      StepCase s s.advance
  | doneHold : s.now.rst = false → s.st = .done → StepCase s s.advance
  | abortHold : s.now.rst = false → s.st = .abort → StepCase s s.advance

/-- Everything a step that answers a next state can have done. -/
theorem step_cases {s t : State} (h : step s = .next t) : StepCase s t := by
  cases hr : s.now.rst with
  | true =>
    rw [step_of_fetch (fetch_rst hr)] at h
    cases h; exact .reset hr
  | false =>
  cases hp : s.st with
  | idle =>
    rw [step_of_fetch (fetch_idle hp hr)] at h
    cases hs : s.now.start <;> rw [hs] at h <;> cases h
    · exact .idleWait hr hp hs
    · exact .start hr hp hs
  | poll =>
    rw [step_of_fetch (fetch_poll hp hr)] at h
    cases hs : s.now.srcHasNext <;> rw [hs] at h <;> cases h
    · exact .pollEnd hr hp hs
    · exact .pollMore hr hp hs
  | load =>
    rw [step_of_fetch (fetch_load hp hr)] at h
    cases h; exact .load hr hp
  | sum =>
    rw [step_of_fetch (fetch_sum hp hr)] at h
    by_cases hw : 4 ≤ s.idx.val ∧ s.idx.val ≤ 15
    · by_cases e : s.idx = 15
      · simp only [exec, execSum, dif_pos hw, if_pos e] at h
        cases h; exact .sumLast hr hp e
      · simp only [exec, execSum, dif_pos hw, if_neg e] at h
        have : s.idx.val ≠ 15 := fun q => e (Fin.ext q)
        cases h; exact .sumNext (by omega) hr hp hw.1 (by omega)
    · simp only [exec, execSum, dif_neg hw, advanceOutcome] at h; cases h
  | csum =>
    rw [step_of_fetch (fetch_csum hp hr)] at h
    cases h; exact .csum hr hp
  | write =>
    rw [step_of_fetch (fetch_write hp hr)] at h
    cases he : s.now.txErr <;> cases ha : s.now.txAccept <;> rw [he, ha] at h <;> cases h
    · exact .writeWait hr hp he ha
    · exact .writeOk hr hp he ha
    · exact .writeFail hr hp he
    · exact .writeFail hr hp he
  | drain =>
    rw [step_of_fetch (fetch_drain hp hr)] at h
    cases he : s.now.txErr with
    | true => rw [he] at h; cases h; exact .drainFail hr hp he
    | false =>
      cases hd : s.now.txDrained with
      | false => rw [he, hd] at h; cases h; exact .drainWait hr hp he hd
      | true =>
        rw [he, hd] at h
        by_cases e : s.idx = 16
        · simp only [e, if_true, Bool.false_eq_true, if_false] at h
          cases h; exact .drainLast hr hp he hd e
        · have hl : s.idx.val < 16 := by
            have : s.idx.val ≠ 16 := fun q => e (Fin.ext q)
            omega
          simp only [e, if_true, Bool.false_eq_true, if_false, exec, execDrainNext, dif_pos hl] at h
          cases h; exact .drainNext hl hr hp he hd
  | done =>
    rw [step_of_fetch (fetch_done hp hr)] at h
    cases h; exact .doneHold hr hp
  | abort =>
    rw [step_of_fetch (fetch_abort hp hr)] at h
    cases h; exact .abortHold hr hp

end Sys2Proof.Machine
end

