-- ==== Sys2Proof/Laws/Run.lean ====
section
/-!
SUPPORT. Runs of several steps, the levels they sample, and the order of events by state and by event.
-/

namespace Sys2Proof.Machine

@[simp] theorem runSteps_zero (s : State) : runSteps 0 s = .next s := rfl

/-- A run begins with its first step. -/
theorem runSteps_succ {s t : State} (k : Nat) (h : step s = .next t) : runSteps (k + 1) s = runSteps k t := by
  simp only [runSteps, h]

/-- A run goes on from where its first part ends. -/
theorem runSteps_add {s t : State} (j k : Nat) (h : runSteps j s = .next t) : runSteps (j + k) s = runSteps k t := by
  induction j generalizing s with
  | zero => cases h; simp
  | succ j ih =>
    rw [Nat.add_right_comm]
    cases hs : step s with
    | next u => rw [runSteps_succ _ hs] at h ⊢; exact ih h
    | fault r => simp [runSteps, hs] at h
    | refused r => simp [runSteps, hs] at h

@[simp] theorem State.levelsAt_zero (s : State) : s.levelsAt 0 = s.now := rfl

/-- After a step the levels are those of one step later. -/
theorem State.levelsAt_succ {s t : State} (h1 : t.inputs = s.inputs.tail) (h2 : t.tick = s.tick + 1) (k : Nat) :
    t.levelsAt k = s.levelsAt (k + 1) := by
  cases s; cases t
  simp only at h1 h2
  subst h1; subst h2
  simp [State.levelsAt, State.now, Nat.add_comm, Nat.add_left_comm]

/-! ### The order of events, event by event -/

theorem Progress.after_next (m : Mode) (v : Record) : Progress.after m .between (.next v) = some (.writing v 0) := rfl

theorem Progress.after_exhausted (m : Mode) : Progress.after m .between .exhausted = some .ended := rfl

theorem Progress.after_write_ok {m : Mode} {v : Record} {i : FrameOffset} {b : Byte} (h : b = (encodeFrame m v)[i]) :
    Progress.after m (.writing v i) (.write b .ok) = some (.draining v i) := if_pos h

theorem Progress.after_write_fail {m : Mode} {v : Record} {i : FrameOffset} {b : Byte} (h : b = (encodeFrame m v)[i]) :
    Progress.after m (.writing v i) (.write b .fail) = some .aborted := if_pos h

theorem Progress.after_drain_next {m : Mode} {v : Record} {i : FrameOffset} (h : i.val < 16) :
    Progress.after m (.draining v i) (.drain .ok) = some (.writing v (nextOffset i h)) := dif_pos h

theorem Progress.after_drain_last (m : Mode) (v : Record) :
    Progress.after m (.draining v 16) (.drain .ok) = some .between := rfl

theorem Progress.after_drain_fail (m : Mode) (v : Record) (i : FrameOffset) :
    Progress.after m (.draining v i) (.drain .fail) = some .aborted := rfl

/-- One more event. -/
theorem progressOf_snoc (m : Mode) (es : List Event) (e : Event) :
    progressOf m (es ++ [e]) = (progressOf m es).bind (fun p => Progress.after m p e) := by
  simp [progressOf, List.foldlM_append]

/-! ### What RunInv says, state by state -/

theorem runInv_idle {s : State} (h : s.st = .idle) : RunInv s ↔ s.trace = [] := by unfold RunInv; rw [h]

theorem runInv_poll {s : State} (h : s.st = .poll) : RunInv s ↔ progressOf s.mode s.trace = some .between := by
  unfold RunInv; rw [h]

theorem runInv_load {s : State} (h : s.st = .load) : RunInv s ↔ progressOf s.mode s.trace = some .between := by
  unfold RunInv; rw [h]

theorem runInv_sum {s : State} (h : s.st = .sum) : RunInv s ↔
    ∃ v, progressOf s.mode s.trace = some (.writing v 0) ∧ s.f = fillFrame s.mode v s.f ∧
      (4 ≤ s.idx.val ∧ s.idx.val ≤ 15) ∧ s.acc.toNat = windowSumBelow s.f s.idx.val := by
  unfold RunInv; rw [h]

theorem runInv_csum {s : State} (h : s.st = .csum) : RunInv s ↔
    ∃ v, progressOf s.mode s.trace = some (.writing v 0) ∧ s.f = fillFrame s.mode v s.f ∧
      s.acc.toNat = windowSumBelow s.f 16 := by
  unfold RunInv; rw [h]

theorem runInv_write {s : State} (h : s.st = .write) : RunInv s ↔
    ∃ v, progressOf s.mode s.trace = some (.writing v s.idx) ∧ s.f = encodeFrame s.mode v := by
  unfold RunInv; rw [h]

theorem runInv_drain {s : State} (h : s.st = .drain) : RunInv s ↔
    ∃ v, progressOf s.mode s.trace = some (.draining v s.idx) ∧ s.f = encodeFrame s.mode v := by
  unfold RunInv; rw [h]

theorem runInv_done {s : State} (h : s.st = .done) : RunInv s ↔ progressOf s.mode s.trace = some .ended := by
  unfold RunInv; rw [h]

theorem runInv_abort {s : State} (h : s.st = .abort) : RunInv s ↔ progressOf s.mode s.trace = some .aborted := by
  unfold RunInv; rw [h]

end Sys2Proof.Machine
end

