-- ==== Sys2Proof/Tests/Slice0.lean ====
section
/-!
SUPPORT. Small tests: the well-formedness checks each refuse an ill-formed literal; one step of every operation against
the vectors of spec/95_test_vectors.md; the encoder's vectors; words, scripts and prints; and for every obligation with
hypotheses a witness that meets them.
-/

namespace Sys2Proof.Tests

open Sys2Proof Sys2Proof.Machine

/-! ### Helpers -/

/-- The state after reset, moved to a state and an offset, with the levels of the next step. -/
def put (p : Phase) (i : FrameOffset) (x : Inputs) : State := { State.reset with st := p, idx := i, inputs := [x] }

/-- The next state, where a step answers one. -/
def res (s : State) : Option State :=
  match step s with
  | .next t => some t
  | _ => none

/-- The next state of one operation, where it answers one. -/
def run (i : Instr) (s : State) : Option State :=
  match exec i s with
  | .next t => some t
  | _ => none

/-- The record of vector E3, as 95_test_vectors.md prints it. -/
def e3 : Record := 0x0000000000000FFF0FFF000700000000

/-- Sixteen different bytes: byte `i` is `0x10 + i`. -/
def counting : Record := 0x1F1E1D1C1B1A19181716151413121110

/-- The literal of vector T1, and with `0xFF` in every free byte. -/
def t1 : Vector Byte 16 := #v[0x55, 0xAA, 0x82, 0x0C, 0x07, 0, 0xFF, 0x0F, 0xFF, 0x0F, 0, 0, 0xB0, 0, 0, 0x01]
def t1free : Vector Byte 16 := #v[0x55, 0xAA, 0x82, 0x0C, 0xFF, 0, 0xFF, 0xFF, 0xFF, 0xFF, 0, 0, 0xB0, 0, 0, 0x01]

/-- The frame of vector E3. -/
def e3frame : Frame := #v[0x55, 0xAA, 0x82, 0x0C, 0x07, 0, 0xFF, 0x0F, 0xFF, 0x0F, 0, 0, 0xB0, 0, 0, 0x01, 0xD4]

/-- The transport answers every request `ok`. -/
def ok : Inputs := { quiet with txAccept := true, txDrained := true }

/-! ### Well-formedness: the literal (R48), an ill-formed one for each check -/

theorem test_wf_t1 : bytesWF t1 = true := by decide
theorem test_wf_free_bytes : bytesWF t1free = true := by decide
theorem test_ill_formed_0 : bytesWF (t1.set 0 0x54) = false := by decide
theorem test_ill_formed_1 : bytesWF (t1.set 1 0x55) = false := by decide
theorem test_ill_formed_2 : bytesWF (t1.set 2 0x02) = false := by decide
theorem test_ill_formed_3 : bytesWF (t1.set 3 0x10) = false := by decide
theorem test_ill_formed_5 : bytesWF (t1.set 5 0x01) = false := by decide
theorem test_ill_formed_10 : bytesWF (t1.set 10 0x10) = false := by decide
theorem test_ill_formed_11 : bytesWF (t1.set 11 0x80) = false := by decide
theorem test_ill_formed_12 : bytesWF (t1.set 12 0x0B) = false := by decide
theorem test_ill_formed_13 : bytesWF (t1.set 13 0xFF) = false := by decide
theorem test_ill_formed_14 : bytesWF (t1.set 14 0x01) = false := by decide
theorem test_ill_formed_15 : bytesWF (t1.set 15 0x02) = false := by decide

/-! ### Words (R57): refusals by name, and the table word of a row -/

theorem test_decode_offset_17 : decodeField 0b1000100000000 = .error .noSuchOffset := by decide
theorem test_decode_wrong_constant : decodeField 0b0001010000011 = .error .wrongConstant := by decide
theorem test_decode_drain_above_16 : decodeOp 0b011010001 .go = .error .noOperation := by decide
theorem test_decode_state_9 : decodeOp 0b100100000 .go = .error .noOperation := by decide
theorem test_decode_high_bits : decodeBytes [0x00, 0x20, 0x00] = .error .highBits := by decide
theorem test_decode_truncated : decodeBytes [0x40, 0x00] = .error .truncated := by decide
theorem test_table_word_sum : decodeTableWord 16 0x0060 = some .sum := by decide
theorem test_table_word_modeb : decodeTableWord 16 0x0CB0 = some .fsModeb := by decide
theorem test_place_runs : (res (State.reset.withFetchWord 16 0x0060)).map (fun t => (t.st, t.idx.val)) =
    some (.sum, 5) := by decide

/-! ### One step of every operation -/

/-- R165, 95_test_vectors.md 2.6: reset with `tx_drained = 1` at the same step. -/
theorem test_reset : (res { put .drain 3 { ok with rst := true } with mode := .table, underrun := true, acc := 724 }).map
    (fun t => (t.st, t.idx.val, t.acc, t.mode, t.underrun)) = some (.idle, 0, 0, .stream, false) := by decide

/-- X8: reset wins over START. -/
theorem test_reset_over_start : (res (put .idle 0 { quiet with rst := true, start := true, mode := true })).map
    (fun t => (t.st, t.mode)) = some (.idle, .stream) := by decide

/-- R121's example. -/
theorem test_start : (res (put .idle 0 { quiet with start := true, mode := true })).map
    (fun t => (t.st, t.mode, t.outputs.busy)) = some (.poll, .table, true) := by decide

/-- R124's example: `mode = 1` without `start` is no command. -/
theorem test_idleWait : (res (put .idle 0 { ok with mode := true, txErr := true })).map
    (fun t => (t.st, t.mode, t.outputs.status)) = some (.idle, .stream, 0x0000) := by decide

theorem test_pollMore : (res (put .poll 0 { quiet with srcHasNext := true })).map
    (fun t => (t.st, t.outputs.srcNext, t.outputs.status)) = some (.load, true, 0x0802) := by decide

/-- R122, and `start` outside IDLE ignored (R125). -/
theorem test_pollEnd : (res (put .poll 0 { quiet with start := true })).map
    (fun t => (t.st, t.trace, t.outputs.status)) = some (.done, [.exhausted], 0x1007) := by decide

/-- 2.4, step 3: LOAD of E3. -/
theorem test_load_stream : (res { put .load 0 { quiet with srcData := e3 } with acc := 5 }).map
    (fun t => (t.f.set 16 0xD4, t.f[16], t.acc, t.outputs.status, t.trace)) =
    some (e3frame, 0, 0, 0x0843, [.next e3]) := by decide

/-- R67 and R144: a short record in TABLE mode, byte `i` of the record at offset `i`. -/
theorem test_load_table : (res { put .load 0 { quiet with srcData := counting, srcShort := true } with
    mode := .table }).map (fun t => (t.f, t.underrun)) =
    some (#v[0x10, 0x11, 0x12, 0x13, 0x14, 0x15, 0x16, 0x17, 0x18, 0x19, 0x1A, 0x1B, 0x1C, 0x1D, 0x1E, 0x1F, 0],
      true) := by decide

/-- 2.3, the SUM step at IDX 6: an unsigned byte carries into bit 8. -/
theorem test_sum_middle : (res { put .sum 6 quiet with f := e3frame, acc := 7 }).map
    (fun t => (t.acc, t.idx.val, t.st)) = some (262, 7, .sum) := by decide

/-- 2.3, the SUM step at IDX 15. -/
theorem test_sum_last : (res { put .sum 15 quiet with f := e3frame, acc := 723 }).map
    (fun t => (t.acc, t.idx.val, t.st)) = some (724, 15, .csum) := by decide

/-- 2.3, the CSUM step. -/
theorem test_csum : (res { put .csum 15 quiet with f := e3frame.set 16 0, acc := 724 }).map
    (fun t => (t.f, t.acc, t.idx.val, t.st)) = some (e3frame, 724, 0, .write) := by decide

/-- E6: a sum of 256 gives `0x00`. -/
theorem test_csum_256 : (res { put .csum 15 quiet with f := e3frame, acc := 256 }).map (fun t => t.f[16]) = some 0x00 := by
  decide

/-- X1: a fault with an acknowledgement is a fault. -/
theorem test_writeFail : (res { put .write 0 { ok with txErr := true } with f := e3frame }).map
    (fun t => (t.outputs.status, t.trace)) = some (0x2008, [.write 0x55 .fail]) := by decide

/-- R101's example: IDX 4 offers 07. -/
theorem test_writeOk : (res { put .write 4 { quiet with txAccept := true } with f := e3frame }).map
    (fun t => (t.st, t.idx.val, t.trace)) = some (.drain, 4, [.write 0x07 .ok]) := by decide

/-- 2.4, step 20; a stray `tx_drained` is no answer in WRITE (R112). -/
theorem test_writeWait : (res { put .write 1 { quiet with txDrained := true } with f := e3frame }).map
    (fun t => (t.outputs.status, t.outputs.txData, t.trace)) = some (0x0815, 0xAA, []) := by decide

/-- X6: a failed drain at offset 16. -/
theorem test_drainFail : (res (put .drain 16 { quiet with txErr := true })).map
    (fun t => (t.outputs.status, t.trace)) = some (0x2308, [.drain .fail]) := by decide

/-- 2.4, step 19. -/
theorem test_drainNext : (res { put .drain 0 { quiet with txDrained := true } with f := e3frame }).map
    (fun t => (t.outputs.status, t.outputs.txData, t.trace)) = some (0x0815, 0xAA, [.drain .ok]) := by decide

/-- The last offset that has a next one. -/
theorem test_drainNext_15 : (res (put .drain 15 ok)).map (fun t => (t.st, t.idx.val)) = some (.write, 16) := by decide

/-- X5. -/
theorem test_drainLast : (res (put .drain 16 { quiet with txDrained := true })).map
    (fun t => (t.st, t.idx.val, t.trace)) = some (.poll, 0, [.drain .ok]) := by decide

/-- 2.4, step 18; a stray `tx_accept` is no answer in DRAIN (R112). -/
theorem test_drainWait : (res (put .drain 0 { quiet with txAccept := true })).map
    (fun t => (t.outputs.status, t.trace)) = some (0x0806, []) := by decide

/-- X7: in DONE `start` is ignored; STATUS of 2.7 after a short record. -/
theorem test_doneHold : (res { put .done 0 { ok with start := true } with underrun := true }).map
    (fun t => (t.st, t.outputs.status)) = some (.done, 0x1407) := by decide

/-- R155: a second fault and `start` are not seen; STATUS of 2.7. -/
theorem test_abortHold : (res { put .abort 5 { quiet with start := true, txErr := true } with eop := true }).map
    (fun t => (t.st, t.outputs.status)) = some (.abort, 0x2258) := by decide

/-! ### The field-selector operations (R68 to R84): offset written, byte, in STREAM and in TABLE -/

/-- The byte an FB operation writes at an offset, in a mode, with the counting record and ACC `0x2D4`. -/
def field (i : Instr) (o : FrameOffset) (m : Mode) : Option Byte :=
  (run i { put .load 0 { quiet with srcData := counting } with mode := m, acc := 0x2D4 }).map (fun t => t.f[o])

theorem test_fsSync1 : (field .fsSync1 0 .stream, field .fsSync1 0 .table) = (some 0x55, some 0x10) := by decide
theorem test_fsSync2 : (field .fsSync2 1 .stream, field .fsSync2 1 .table) = (some 0xAA, some 0x11) := by decide
theorem test_fsType : (field .fsType 2 .stream, field .fsType 2 .table) = (some 0x82, some 0x12) := by decide
theorem test_fsLen : (field .fsLen 3 .stream, field .fsLen 3 .table) = (some 0x0C, some 0x13) := by decide
theorem test_fsDir : (field (.fsDir 0) 4 .stream, field (.fsDir 0) 4 .table) = (some 0x14, some 0x14) := by decide
theorem test_fsSeq : (field .fsSeq 5 .stream, field .fsSeq 5 .table) = (some 0x00, some 0x15) := by decide
theorem test_fsXlo : (field (.fsXlo 0) 6 .stream, field (.fsXlo 0) 6 .table) = (some 0x16, some 0x16) := by decide
theorem test_fsXhi : (field (.fsXhi 0) 7 .stream, field (.fsXhi 0) 7 .table) = (some 0x17, some 0x17) := by decide
theorem test_fsYlo : (field (.fsYlo 0) 8 .stream, field (.fsYlo 0) 8 .table) = (some 0x18, some 0x18) := by decide
theorem test_fsYhi : (field (.fsYhi 0) 9 .stream, field (.fsYhi 0) 9 .table) = (some 0x19, some 0x19) := by decide
theorem test_fsZlo : (field .fsZlo 10 .stream, field .fsZlo 10 .table) = (some 0x00, some 0x1A) := by decide
theorem test_fsZhi : (field .fsZhi 11 .stream, field .fsZhi 11 .table) = (some 0x00, some 0x1B) := by decide
theorem test_fsModeb : (field .fsModeb 12 .stream, field .fsModeb 12 .table) = (some 0xB0, some 0x1C) := by decide
theorem test_fsXtilt : (field .fsXtilt 13 .stream, field .fsXtilt 13 .table) = (some 0x00, some 0x1D) := by decide
theorem test_fsYtilt : (field .fsYtilt 14 .stream, field .fsYtilt 14 .table) = (some 0x00, some 0x1E) := by decide
theorem test_fsNpts : (field .fsNpts 15 .stream, field .fsNpts 15 .table) = (some 0x01, some 0x1F) := by decide
theorem test_fsCs : (field (.fsCs 0) 16 .stream, field (.fsCs 0) 16 .table) = (some 0xD4, some 0xD4) := by decide

/-! ### The encoder as a function, vectors of 95_test_vectors.md 2.1 and 2.2 -/

theorem test_encode_e3 : encodeFrame .stream e3 = e3frame := by decide

/-- E2, the largest STREAM sum. -/
theorem test_encode_e2 : (encodeFrame .stream (BitVec.allOnes 128))[16] = 0xAC := by decide

/-- E8: bytes with bit 7 set add 128. -/
theorem test_encode_e8 : (encodeFrame .stream 0x80008000000000)[16] = 0xB1 := by decide

/-- T3, the largest sum. -/
theorem test_encode_t3 : (encodeFrame .table (BitVec.allOnes 128))[16] = 0xF4 := by decide

/-- P2's first encoding is T1's literal. -/
theorem test_pack_t1 : packRecord t1 = 0x010000B000000FFF0FFF00070C82AA55 := by decide

/-- T2 is no equivalent input: the literal fails TableWF, the two modes differ. -/
theorem test_t2_modes_differ :
    ((encodeFrame .table (packRecord (((t1.set 5 1).set 10 0x10).set 15 2)))[16],
     (encodeFrame .stream (packRecord (((t1.set 5 1).set 10 0x10).set 15 2)))[16]) = (0xE6, 0xD4) := by decide

/-! ### STATUS (2.7), scripts (R63) and the trace print (R64) -/

theorem test_status_write_6 : (put .write 6 quiet).outputs.status = 0x0865 := by decide

theorem test_status_drain_3_short : ({ put .drain 3 quiet with underrun := true } : State).outputs.status = 0x0C36 := by
  decide

/-- `PEN 01 1234 5678` (P5): low byte first. -/
theorem test_pen : penBytes 0x01 0x1234 0x5678 =
    #v[0, 0, 0, 0, 0x01, 0, 0x34, 0x12, 0x78, 0x56, 0, 0, 0, 0, 0, 0] := by decide

theorem test_rep : expandLine (.rep 3 .stop) = [.stop, .stop, .stop] := by decide

/-- Variant P4b's trace, with `D`, `D!` and `X` after it: `N W55! D D! X`. -/
theorem test_print : printTrace [.next 0, .write 0x55 .fail, .drain .ok, .drain .fail, .exhausted] =
    ['N', ' ', 'W', '5', '5', '!', ' ', 'D', ' ', 'D', '!', ' ', 'X'] := by decide

/-- R64: a byte prints as two capital hexadecimal digits. -/
theorem test_print_byte : printEvent (.write 0x0C .ok) = ['W', '0', 'C'] := by decide

/-! ### Witnesses: for every obligation with hypotheses, values that meet them -/

theorem witness_EncodeDecodeRoundTrip : (Instr.fsDir 0xFF).wf = true ∧ Instr.drainLast.wf = true := by decide

theorem witness_FieldWordsNameTheirOffset : 16 < (17 : BitVec 5).toNat ∧ 16 < (31 : BitVec 5).toNat := by decide

theorem witness_OpRowsDisjoint :
    (⟨0x1FF, 0x0D0, .go, .drainLast⟩ : OpRow) ∈ opRows ∧
    OpRow.matches ⟨0x1FF, 0x0D0, .go, .drainLast⟩ 0x0D0 .go = true := by decide

theorem witness_ReservedStateCodesHaveNoOperation :
    9 ≤ ((0x120 : BitVec 9).extractLsb' 5 4).toNat ∧ 9 ≤ ((0x1FF : BitVec 9).extractLsb' 5 4).toNat ∧
    Cond.go ≠ Cond.reset := by decide

theorem witness_StepRunsTheSelectedOperation :
    decodeOp (put .sum 15 quiet).selectWord (put .sum 15 quiet).cond = .ok .sum ∧
    decodeOp (put .drain 16 ok).selectWord (put .drain 16 ok).cond = .ok .drainLast := by decide

theorem witness_PlacedOperationIsSelected :
    decodeTableWord 16 0x0D0 = some .drainLast ∧ decodeTableWord 9 0x060 = some .sum := by decide

theorem witness_ResetWritesEverythingButTheFrame :
    (put .abort 16 { ok with rst := true }).now.rst = true ∧
    (run .reset (put .abort 16 quiet)).isSome = true := by decide

theorem witness_OutputsAfterReset : (run .reset (put .write 7 quiet)).isSome = true := by decide

theorem witness_StartLatchesModeAndPolls :
    (put .idle 0 { quiet with start := true }).st = .idle ∧
    (put .idle 0 { quiet with start := true }).now.start = true ∧
    (put .idle 0 { quiet with start := true }).now.rst = false ∧
    (put .idle 0 { quiet with start := true, rst := true }).now.start = true ∧
    (put .idle 0 { quiet with start := true, rst := true }).now.rst = true := by decide

theorem witness_IdleWaitsForStart :
    (put .idle 0 quiet).st = .idle ∧ (put .idle 0 quiet).now.rst = false ∧ (put .idle 0 quiet).now.start = false ∧
    (put .idle 0 quiet).idx = 0 ∧ (put .idle 0 quiet).underrun = false ∧ (put .idle 0 quiet).eop = false := by decide

theorem witness_PollAsksTheSourceOnce :
    (put .poll 0 quiet).st = .poll ∧ (put .poll 0 quiet).now.rst = false ∧
    (put .poll 0 quiet).now.srcHasNext = false ∧
    (put .poll 0 { quiet with srcHasNext := true }).now.srcHasNext = true := by decide

theorem witness_DoneIsTerminal : (put .done 0 ok).st = .done ∧ (put .done 0 ok).now.rst = false := by decide

/-- IDLE with a start, then no input. -/
def emptyRun : State := { State.reset with inputs := [{ quiet with start := true }, quiet] }

theorem witness_EmptyRun :
    emptyRun.st = .idle ∧ emptyRun.idx = 0 ∧ NoReset (emptyRun.levelsAt 0) ∧ NoReset (emptyRun.levelsAt 1) ∧
    (emptyRun.levelsAt 0).start = true ∧ (emptyRun.levelsAt 1).srcHasNext = false := by decide

theorem witness_LoadStreamFillsTheTemplate : (put .load 0 { quiet with srcData := e3 }).mode = .stream := by decide

theorem witness_LoadTablePassesTheLiteral :
    ({ put .load 0 { quiet with srcData := e3 } with mode := .table } : State).mode = .table ∧ 0 < 16 ∧ 15 < 16 := by
  decide

theorem witness_HeaderFieldsTakeTheirByte : (0 : FrameOffset).val < 4 ∧ (3 : FrameOffset).val < 4 := by decide

theorem witness_CopiedFieldsTakeTheSourceByte :
    (4 : FrameOffset).val ∈ [4, 6, 7, 8, 9] ∧ (9 : FrameOffset).val ∈ [4, 6, 7, 8, 9] := by decide

theorem witness_ConstantPayloadFieldsTakeTheirByte :
    (5 : FrameOffset).val ∈ [5, 10, 11, 12, 13, 14, 15] ∧ (15 : FrameOffset).val ∈ [5, 10, 11, 12, 13, 14, 15] := by
  decide

theorem witness_LoadIsTheSixteenFieldOperations :
    (run .load (put .load 0 { quiet with srcData := e3 })).isSome = true := by decide

theorem witness_SumAddsTheWindowByte :
    (4 ≤ (put .sum 4 quiet).idx.val ∧ (put .sum 4 quiet).idx.val < 15) ∧
    ((put .sum 14 quiet).idx.val < 15 ∧ (15 : FrameOffset).val = (put .sum 14 quiet).idx.val + 1) ∧
    (4 ≤ (put .sum 15 quiet).idx.val ∧ (put .sum 15 quiet).idx.val ≤ 15 ∧ (put .sum 15 quiet).idx = 15) := by decide

theorem witness_SumOutsideTheWindowIsStuck :
    (put .sum 3 quiet).idx.val < 4 ∧ 15 < (put .sum 16 quiet).idx.val ∧ (put .drain 16 quiet).idx = 16 := by decide

theorem witness_SumNeverOverflows :
    ((put .sum 4 quiet).acc.toNat = windowSumBelow (put .sum 4 quiet).f (put .sum 4 quiet).idx.val ∧
      (run .sum (put .sum 4 quiet)).isSome = true) ∧
    723 = windowSumBelow e3frame 15 ∧
    (run .sum { put .sum 15 quiet with f := e3frame, acc := 723 }).isSome = true := by decide

theorem witness_ChecksumStoredIsCk :
    724 = windowSumBelow e3frame 16 ∧ (run .csum { put .csum 15 quiet with f := e3frame, acc := 724 }).isSome = true := by
  decide

theorem witness_AccumulatorWidthIsNotObservable : 8 ≤ 8 ∧ 8 ≤ 12 := by decide

theorem witness_ChecksumWindowIsExact :
    (∀ i : FrameOffset, 4 ≤ i.val → i.val ≤ 15 → e3frame[i] = ((e3frame.set 3 0x99).set 16 0)[i]) ∧
    (4 ≤ (4 : FrameOffset).val ∧ (4 : FrameOffset).val ≤ 15) ∧
    (4 ≤ (15 : FrameOffset).val ∧ (15 : FrameOffset).val ≤ 15) := by decide

/-- E3 and E4 differ in the direction byte, by `0xFD` modulo 256. -/
theorem witness_StreamChecksumClosedForm :
    srcByte 0x0000000000000FFF0FFF000400000000 4 = srcByte e3 4 + 0xFD ∧
    ∀ i ∈ [6, 7, 8, 9], srcByte 0x0000000000000FFF0FFF000400000000 i = srcByte e3 i := by decide

/-- E3 and E9 agree at the five bytes; T1 and T5 differ at byte 0, and two literals at byte 15. -/
theorem witness_StreamIgnoresTheUnusedBytes :
    (∀ i ∈ [4, 6, 7, 8, 9], srcByte e3 i = srcByte 0x77EEDDCCBBAA0FFF0FFF990744332211 i) ∧
    srcByte (packRecord t1) (0 : Fin 16).val ≠ srcByte (packRecord (t1.set 0 0)) (0 : Fin 16).val ∧
    srcByte (packRecord t1) (15 : Fin 16).val ≠ srcByte (packRecord (t1.set 15 2)) (15 : Fin 16).val := by decide

theorem witness_EquivalentInputsEncodeAlike :
    equivalentInputs e3 (packRecord t1) = true ∧ tableWF (packRecord t1) = true := by decide

/-- LOAD with fourteen samples without a reset. -/
def loading : State :=
  { State.reset with st := .load, inputs := { quiet with srcData := e3 } :: List.replicate 13 quiet }

theorem witness_EncoderComputesEncode : loading.st = .load ∧ ∀ k < 14, NoReset (loading.levelsAt k) := by decide

theorem witness_WriteTakesTheTransportsAnswer :
    (put .write 16 quiet).st = .write ∧ (put .write 16 quiet).now.rst = false := by decide

theorem witness_DrainTakesTheTransportsAnswer :
    (put .drain 0 { ok with txErr := true }).now.txErr = true ∧
    ((put .drain 15 ok).st = .drain ∧ (put .drain 15 ok).now.rst = false ∧ (put .drain 15 ok).now.txErr = false ∧
      (put .drain 15 ok).now.txDrained = true ∧ (put .drain 15 ok).idx.val < 16 ∧
      (16 : FrameOffset).val = (put .drain 15 ok).idx.val + 1) ∧
    ((put .drain 16 ok).now.txDrained = true ∧ (put .drain 16 ok).idx = 16) ∧
    ((put .drain 16 quiet).now.txErr = false ∧ (put .drain 16 quiet).now.txDrained = false) := by decide

theorem witness_FaultBeatsAcknowledgement :
    (put .write 0 { ok with txErr := true }).now.rst = false ∧ (put .write 0 { ok with txErr := true }).now.txErr = true ∧
    (put .write 0 { ok with txErr := true }).st = .write ∧ (put .drain 0 { ok with txErr := true }).st = .drain := by
  decide

theorem witness_AbortIsTerminal :
    (put .abort 16 { ok with txErr := true }).st = .abort ∧ (put .abort 16 { ok with txErr := true }).now.rst = false := by
  decide

/-- ABORT and WRITE and DRAIN with three samples given. -/
def holding (p : Phase) (x : Inputs) : State := { put p 5 x with inputs := [x, x, x] }

theorem witness_AbortKeepsTheFaultRecord :
    (holding .abort { ok with txErr := true }).st = .abort ∧
    ∀ j < 3, NoReset ((holding .abort { ok with txErr := true }).levelsAt j) := by decide

theorem witness_WaitsChangeNothing :
    ((holding .write quiet).st = .write ∨ (holding .write quiet).st = .drain) ∧
    (∀ j < 3, NoReset ((holding .write quiet).levelsAt j) ∧ AnswersNothing ((holding .write quiet).levelsAt j)) ∧
    ((holding .drain quiet).st = .write ∨ (holding .drain quiet).st = .drain) ∧
    ∀ j < 3, NoReset ((holding .drain quiet).levelsAt j) ∧ AnswersNothing ((holding .drain quiet).levelsAt j) := by decide

/-- WRITE at offset 0 with thirty-four samples that answer. -/
def sending : State := { State.reset with st := .write, f := e3frame, inputs := List.replicate 34 ok }

theorem witness_TransmitterSendsTheFrame :
    sending.st = .write ∧ sending.idx = 0 ∧
    ∀ k < 34, NoReset (sending.levelsAt k) ∧ AnswersOk (sending.levelsAt k) := by decide

/-- Samples that differ in every input the state does not sample, one pair for each kind of state, and one under reset. -/
theorem witness_UnsampledInputsAreIgnored :
    SameSampled .idle { ok with mode := true } quiet ∧ SameSampled .poll { ok with start := true } quiet ∧
    SameSampled .load { ok with srcHasNext := true } quiet ∧
    SameSampled .write { quiet with txErr := true, txAccept := true } { quiet with txErr := true } ∧
    SameSampled .drain { quiet with txAccept := true } quiet ∧ SameSampled .done { ok with start := true } quiet ∧
    SameSampled .drain { ok with rst := true } { quiet with rst := true } := by
  simp [SameSampled, ok, quiet]

/-- For each register a step that changes it. -/
theorem witness_RegistersWrittenByTheirOperationsAlone :
    ((res (put .drain 0 ok)).map (fun t => t.idx) = some 1) ∧
    ((res { put .sum 4 quiet with f := e3frame }).map (fun t => t.acc) = some 7) ∧
    ((res (put .idle 0 { quiet with start := true, mode := true })).map (fun t => t.mode) = some .table) ∧
    ((res (put .load 0 { quiet with srcShort := true })).map (fun t => t.underrun) = some true) ∧
    ((res (put .drain 0 { quiet with txErr := true })).map (fun t => t.eop) = some true) ∧
    ((res (put .load 0 quiet)).map (fun t => t.f[0]) = some 0x55) ∧
    ((res { put .csum 15 quiet with acc := 724 }).map (fun t => t.f[16]) = some 0xD4) := by decide

theorem witness_UnderrunIsStickyAndInert :
    (res (put .load 0 { quiet with srcShort := true })).isSome = true ∧ (res (put .abort 0 quiet)).isSome = true := by
  decide

theorem witness_StepRecordsItsEvent : (res (put .write 0 ok)).isSome = true ∧ (res (put .poll 0 quiet)).isSome = true := by
  decide

theorem witness_OutputsFollowTheState : (put .write 6 quiet).st = .write ∧ (put .drain 6 quiet).st ≠ .write := by decide

theorem witness_StepNeverStops :
    IndexInv (put .sum 4 quiet) ∧ IndexInv (put .sum 15 quiet) ∧ IndexInv (put .csum 15 quiet) ∧
    IndexInv (put .drain 16 quiet) := by decide

/-- The state before the last SUM step of E3, and the one before CSUM. -/
def sum15 : State := { put .sum 15 quiet with f := e3frame, acc := 723 }
def csum15 : State := { put .csum 15 quiet with f := e3frame, acc := 724 }

theorem witness_InvariantKeptByEveryStep :
    (Machine.Inv sum15 ∧ (res sum15).isSome = true) ∧ (Machine.Inv csum15 ∧ (res csum15).isSome = true) :=
  ⟨⟨by decide, by decide⟩, by decide, by decide⟩

/-- LOAD between frames, and WRITE of offset 0 with the frame of the record taken. -/
theorem witness_EventOrderKeptByEveryStep :
    (NoReset (put .load 0 quiet).now ∧ RunInv (put .load 0 quiet) ∧ (res (put .load 0 quiet)).isSome = true) ∧
    NoReset ({ put .write 0 ok with f := e3frame, trace := [.next e3] } : State).now ∧
    RunInv { put .write 0 ok with f := e3frame, trace := [.next e3] } ∧
    (res { put .write 0 ok with f := e3frame, trace := [.next e3] }).isSome = true :=
  ⟨⟨by decide, rfl, by decide⟩, by decide, ⟨e3, rfl, by decide⟩, by decide⟩

theorem witness_FrameContentBeforeLoadIsUnobservable :
    (State.reset.st = .idle ∨ State.reset.st = .poll ∨ State.reset.st = .load) ∧
    (loading.st = .idle ∨ loading.st = .poll ∨ loading.st = .load) := by decide

theorem witness_ScriptedRunSendsEveryFrame : State.reset.st = .idle ∧ State.reset.idx = 0 := by decide

/-- POLL with the record offered at two steps. -/
def offering : State :=
  { State.reset with
    st := .poll, inputs := [{ quiet with srcHasNext := true, srcData := e3 }, { quiet with srcData := e3 }] }

theorem witness_RecordOfferedIsRecordTaken :
    offering.st = .poll ∧
    offering.inputs = { quiet with srcHasNext := true, srcData := e3 } :: { quiet with srcData := e3 } :: [] ∧
    NoReset { quiet with srcHasNext := true, srcData := e3 } ∧ NoReset { quiet with srcData := e3 } ∧
    SourceStable { quiet with srcHasNext := true, srcData := e3 } { quiet with srcData := e3 } := by decide

end Sys2Proof.Tests
end

section
/-!
PROOFS. The step and the operation it decodes (O7); the step and the event it records (O47).
-/

namespace Sys2Proof.Machine

/-- Settles O7: the decoded operation is the fetched one, and `advanceOutcome` is the passing of the step event (R6). -/
theorem stepRunsTheSelectedOperation : Obligations.StepRunsTheSelectedOperation := by
  intro s i hdec
  have hfetch : s.fetch = .ok i := hdec
  rw [step_of_fetch hfetch]
  cases exec i s <;> rfl

/-- Settles O47: of the cases of `step_cases`, only POLL.END, LOAD and the transport's answers in WRITE and DRAIN record an
event; RESET comes first, whatever ST is (R7, R165). -/
theorem stepRecordsItsEvent : Obligations.StepRecordsItsEvent := by
  intro s t h
  cases step_cases h with
  | reset hrst => simp [hrst]
  | start hrst hst _ | idleWait hrst hst _ => simp [hrst, hst]
  | pollMore hrst hst hnext | pollEnd hrst hst hnext => simp [hrst, hst, hnext]
  | load hrst hst => simp [hrst, hst]
  | sumNext _ hrst hst _ _ | sumLast hrst hst _ => simp [hrst, hst]
  | csum hrst hst => simp [hrst, hst]
  | writeFail hrst hst herr => simp [hrst, hst, herr]
  | writeOk hrst hst herr hacc | writeWait hrst hst herr hacc => simp [hrst, hst, herr, hacc]
  | drainFail hrst hst herr => simp [hrst, hst, herr]
  | drainNext _ hrst hst herr hdone | drainLast hrst hst herr hdone _ | drainWait hrst hst herr hdone =>
    simp [hrst, hst, herr, hdone]
  | doneHold hrst hst | abortHold hrst hst => simp [hrst, hst]

end Sys2Proof.Machine
end

section
/-!
PROOFS. The register invariants, each kept by every step, and all of them together (O52).
-/

namespace Sys2Proof.Machine

/-! ### The frame with its checksum byte written, and the next offset -/

@[simp] theorem nextOffset_val (i : FrameOffset) (h : i.val < 16) : (nextOffset i h).val = i.val + 1 := rfl

/-- Writing offset 16 leaves every other offset alone. -/
theorem set_cs_get_ne (f : Frame) (b : Byte) (i : FrameOffset) (h : i ≠ 16) : (f.set 16 b)[i] = f[i] :=
  Vector.getElem_set_ne _ _ fun e => h (Fin.ext e.symm)

/-- The header and constant offsets do not include offset 16. -/
theorem frameConstants_set_cs (f : Frame) (b : Byte) : frameConstants (f.set 16 b) = frameConstants f := by
  have hbytes : ∀ i : Fin 16, (f.set 16 b)[i.val] = f[i.val] := fun i =>
    set_cs_get_ne f b ⟨i.val, by omega⟩ (Fin.ne_of_val_ne (by show i.val ≠ 16; omega))
  simp only [frameConstants, hbytes]

/-- A STREAM frame holds the constants, whatever the record (R66, R94). -/
theorem frameConstants_fillFrame_stream (v : Record) (old : Frame) :
    frameConstants (fillFrame .stream v old) = true := by
  simp [frameConstants, bytesWF, fillFrame]

/-! ### Each invariant alone -/

section

variable {s t : State}

/-- LOAD enters the window, SUM walks it up to 15, CSUM and the last drain return to 0 (R11). -/
theorem step_keeps_indexInv (hinv : IndexInv s) (h : step s = .next t) : IndexInv t := by
  obtain ⟨hzero, hsum, hcsum⟩ := hinv
  cases step_cases h with
  | reset | load | csum | drainLast => simp [IndexInv]
  | start _ hst | pollMore _ hst | pollEnd _ hst =>
    have hidx : s.idx = 0 := hzero (by simp [hst])
    simp [IndexInv, hidx]
  | sumNext _ _ hst h4 h15 =>
    have hnext : 4 ≤ s.idx.val + 1 ∧ s.idx.val + 1 ≤ 15 := by omega
    simpa [IndexInv, hst] using hnext
  | sumLast _ _ hidx => simp [IndexInv, hidx]
  | writeFail | writeOk | drainFail | drainNext => simp [IndexInv]
  | idleWait | writeWait | drainWait | doneHold | abortHold => exact ⟨hzero, hsum, hcsum⟩

/-- EOP is written on entry to ABORT alone, and only RESET leaves ABORT (R19, R155). -/
theorem step_keeps_eopInv (hinv : EopInv s) (h : step s = .next t) : EopInv t := by
  cases step_cases h with
  | reset => simp [EopInv]
  | writeFail | drainFail => simp [EopInv]
  | idleWait | writeWait | drainWait | doneHold | abortHold => exact hinv
  | start _ hst | pollMore _ hst | pollEnd _ hst | load _ hst | sumNext _ _ hst | sumLast _ hst | csum _ hst
  | writeOk _ hst | drainNext _ _ hst | drainLast _ hst =>
    have heop : s.eop = false := by simpa [EopInv, hst] using hinv
    simp [EopInv, heop]

/-- LOAD starts the sum at 0, each SUM adds without overflow, CSUM stores its low byte outside the window (R85 to R88). -/
theorem step_keeps_sumInv (hinv : SumInv s) (h : step s = .next t) : SumInv t := by
  obtain ⟨hsum, hcsum, hframe⟩ := hinv
  cases step_cases h with
  | reset | start | pollMore | pollEnd | drainLast => simp [SumInv]
  | load => simp [SumInv, windowSumBelow_four]
  | sumNext _ _ hst h4 h15 =>
    have hacc := acc_add_exact s.acc s.f s.idx h4 (by omega) (hsum hst)
    simpa [SumInv, hst] using hacc
  | sumLast _ hst hidx =>
    have hacc := acc_add_exact s.acc s.f s.idx (by simp [hidx]) (by simp [hidx]) (hsum hst)
    simpa [SumInv, hidx] using hacc
  | csum _ hst =>
    have hacc := hcsum hst
    simp [SumInv, hacc, windowSumBelow_set_cs, low_byte_eq_ck s.acc s.f hacc]
  | writeFail _ hst | writeOk _ hst | drainFail _ hst | drainNext _ _ hst =>
    have hdone := hframe (by simp [hst])
    simpa [SumInv] using hdone
  | idleWait | writeWait | drainWait | doneHold | abortHold => exact ⟨hsum, hcsum, hframe⟩

/-- LOAD writes the constants, and CSUM writes offset 16 alone; MODE changes only where no frame is held (R94). -/
theorem step_keeps_constantsInv (hinv : ConstantsInv s) (h : step s = .next t) : ConstantsInv t := by
  cases step_cases h with
  | reset | start | pollMore | pollEnd | drainLast => simp [ConstantsInv]
  | load => simp +contextual [ConstantsInv, frameConstants_fillFrame_stream]
  | sumNext _ _ hst | sumLast _ hst | csum _ hst | writeFail _ hst | writeOk _ hst | drainFail _ hst
  | drainNext _ _ hst =>
    have hkept : s.mode = .stream → frameConstants s.f = true := fun hmode => hinv hmode (by simp [hst])
    simpa [ConstantsInv, hst, frameConstants_set_cs] using hkept
  | idleWait | writeWait | drainWait | doneHold | abortHold => exact hinv

end

/-- Settles O52: each invariant is kept by itself, so a step needs none of the others to keep it. -/
theorem invariantKeptByEveryStep : Obligations.InvariantKeptByEveryStep := by
  rintro s t ⟨hidx, heop, hsum, hconst⟩ h
  exact ⟨step_keeps_indexInv hidx h, step_keeps_eopInv heop h, step_keeps_sumInv hsum h,
    step_keeps_constantsInv hconst h⟩

end Sys2Proof.Machine
end

section
/-!
PROOFS. What a step reads and what it writes: the inputs of a state (O44), the writers of each register (O45), UNDERRUN
(O46), the outputs (O48).
-/

namespace Sys2Proof.Machine

/-! ### The step and its operation -/

/-- A step that answers a next state is an operation that answers one, then the passing of the step event. -/
theorem exec_of_step {s t : State} (h : step s = .next t) :
    ∃ i u, s.fetch = .ok i ∧ exec i s = .next u ∧ t = u.advance := by
  unfold step at h
  split at h
  next i hfetch =>
    cases hexec : exec i s with
    | next u =>
      rw [hexec] at h
      cases h
      exact ⟨i, u, hfetch, hexec, rfl⟩
    | fault r | refused r => rw [hexec] at h; cases h
  next => cases h

/-! ### The inputs a state samples -/

/-- The input condition is made of the sampled inputs alone (R21, R56). -/
theorem sampleCond_congr {p : Phase} {x y : Inputs} (h : SameSampled p x y) : sampleCond p x = sampleCond p y := by
  obtain ⟨hrst, hsame⟩ := h
  cases hx : x.rst with
  | true => rw [sampleCond_rst hx, sampleCond_rst (hrst ▸ hx)]
  | false =>
    have hy : y.rst = false := hrst ▸ hx
    specialize hsame hx
    cases p with
    | idle =>
      obtain ⟨hstart, -⟩ := hsame
      rw [sampleCond_idle hx, sampleCond_idle hy, hstart]
    | poll =>
      have hnext : x.srcHasNext = y.srcHasNext := hsame
      rw [sampleCond_poll hx, sampleCond_poll hy, hnext]
    | write =>
      obtain ⟨herr, hacc⟩ := hsame
      rw [sampleCond_write hx, sampleCond_write hy, writeAnswer, writeAnswer, ← herr]
      cases he : x.txErr with
      | true => rfl
      | false => rw [hacc he]
    | drain =>
      obtain ⟨herr, hdone⟩ := hsame
      rw [sampleCond_drain hx, sampleCond_drain hy, drainAnswer, drainAnswer, ← herr]
      cases he : x.txErr with
      | true => rfl
      | false => rw [hdone he]
    | load | sum | csum | done | abort => simp [sampleCond, hx, hy]

/-- The operations whose writes come from an input port, beside the condition that selects them: START, LOAD and the
field selector. -/
def readsPorts : Instr → Bool
  | .reset | .idleWait | .pollMore | .pollEnd | .sum | .csum => false
  | .writeFail | .writeOk | .writeWait | .drainFail | .drainNext | .drainLast | .drainWait => false
  | .doneHold | .abortHold => false
  | _ => true

/-- An operation that reads no port ends alike under any two samples, once the step event has passed. -/
theorem exec_of_not_readsPorts {i : Instr} (hi : readsPorts i = false) (s : State) (x y : Inputs) (rest : List Inputs) :
    advanceOutcome (exec i { s with inputs := x :: rest }) = advanceOutcome (exec i { s with inputs := y :: rest }) := by
  cases i with
  | sum =>
    simp only [exec, execSum]
    split_ifs <;> rfl
  | drainNext =>
    simp only [exec, execDrainNext]
    split_ifs <;> rfl
  | reset | idleWait | pollMore | pollEnd | csum | writeFail | writeOk | writeWait | drainFail | drainLast | drainWait
  | doneHold | abortHold => rfl
  | _ => cases hi

/-- A step selects an operation that reads a port in two places: START in IDLE and LOAD in LOAD (R56). -/
theorem fetch_readsPorts {s : State} {i : Instr} (h : s.fetch = .ok i) (hi : readsPorts i = true) :
    s.now.rst = false ∧
      ((i = .start ∧ s.st = .idle ∧ s.now.start = true) ∨ (i = .load ∧ s.st = .load)) := by
  cases hrst : s.now.rst with
  | true => rw [fetch_rst hrst] at h; cases h; cases hi
  | false =>
    refine ⟨rfl, ?_⟩
    cases hst : s.st with
    | idle =>
      rw [fetch_idle hst hrst] at h
      cases hs : s.now.start with
      | true => rw [hs] at h; cases h; exact .inl ⟨rfl, rfl, rfl⟩
      | false => rw [hs] at h; cases h; cases hi
    | load => rw [fetch_load hst hrst] at h; cases h; exact .inr ⟨rfl, rfl⟩
    | poll => rw [fetch_poll hst hrst] at h; cases h; split_ifs at hi <;> cases hi
    | write => rw [fetch_write hst hrst] at h; cases h; split_ifs at hi <;> cases hi
    | drain => rw [fetch_drain hst hrst] at h; cases h; split_ifs at hi <;> cases hi
    | sum => rw [fetch_sum hst hrst] at h; cases h; cases hi
    | csum => rw [fetch_csum hst hrst] at h; cases h; cases hi
    | done => rw [fetch_done hst hrst] at h; cases h; cases hi
    | abort => rw [fetch_abort hst hrst] at h; cases h; cases hi

/-- The levels given first are the ones sampled. -/
theorem now_given (s : State) (x : Inputs) (rest : List Inputs) : State.now { s with inputs := x :: rest } = x := rfl

/-- A selected operation ends alike under samples that agree on what the state samples. -/
theorem exec_of_sameSampled {s : State} {x y : Inputs} {rest : List Inputs} {i : Instr} (h : SameSampled s.st x y)
    (hfetch : State.fetch { s with inputs := x :: rest } = .ok i) :
    advanceOutcome (exec i { s with inputs := x :: rest }) = advanceOutcome (exec i { s with inputs := y :: rest }) := by
  cases hi : readsPorts i with
  | false => exact exec_of_not_readsPorts hi s x y rest
  | true =>
    obtain ⟨hrst, ⟨rfl, hst, hstart⟩ | ⟨rfl, hst⟩⟩ := fetch_readsPorts hfetch hi
    · rw [show s.st = .idle from hst] at h
      have hmode : x.mode = y.mode := (h.2 hrst).2 hstart
      simp only [exec, execStart, now_given, hmode]
      rfl
    · rw [show s.st = .load from hst] at h
      obtain ⟨hdata, hshort⟩ := h.2 hrst
      simp only [exec, execLoad, State.fillFields, now_given, hdata, hshort]
      rfl

/-- Settles O44: the two samples select one operation, and it reads no port that the state does not sample. -/
theorem unsampledInputsAreIgnored : Obligations.UnsampledInputsAreIgnored := by
  intro s x y rest hsame
  have hfetch : State.fetch { s with inputs := x :: rest } = State.fetch { s with inputs := y :: rest } :=
    congrArg (decodeOp s.selectWord) (sampleCond_congr hsame)
  cases hop : State.fetch { s with inputs := x :: rest } with
  | ok i => rw [step_of_fetch hop, step_of_fetch (hfetch ▸ hop), exec_of_sameSampled hsame hop]
  | error e => simp only [step, ← hfetch, hop]

/-! ### The registers -/

/-- LOAD leaves the checksum byte alone (R66, R67). -/
@[simp] theorem fillFrame_cs (m : Mode) (v : Record) (old : Frame) : (fillFrame m v old)[16] = old[16] :=
  fillFrame_get m v old 16

/-- Settles O45: each case of `step_cases` shows the registers its operation writes. -/
theorem registersWrittenByTheirOperationsAlone : Obligations.RegistersWrittenByTheirOperationsAlone := by
  intro s t h
  cases step_cases h with
  | reset hrst => simp [hrst]
  | start hrst hst hs => simp [hst, hs]
  | load hrst hst => simp +contextual [hrst, hst]
  | sumNext _ _ hst | sumLast _ hst => simp [hst]
  | csum hrst hst =>
    have hkept := set_cs_get_ne s.f (s.acc.extractLsb' 0 8)
    simpa +contextual [hrst, hst] using hkept
  | writeFail _ hst herr | drainFail _ hst herr => simp [hst, herr]
  | drainNext _ _ hst | drainLast _ hst => simp [hst]
  | pollMore | pollEnd | writeOk => simp
  | idleWait | writeWait | drainWait | doneHold | abortHold => simp

/-! ### UNDERRUN -/

/-- UNDERRUN after a step (R18). -/
theorem step_underrun {s t : State} (h : step s = .next t) :
    t.underrun = if s.now.rst then false else if s.st = .load then s.underrun || s.now.srcShort else s.underrun := by
  cases step_cases h with
  | reset hrst => simp [hrst]
  | load hrst hst => simp [hrst, hst]
  | start hrst hst | idleWait hrst hst | pollMore hrst hst | pollEnd hrst hst | sumNext _ hrst hst
  | sumLast hrst hst | csum hrst hst | writeFail hrst hst | writeOk hrst hst | writeWait hrst hst
  | drainFail hrst hst | drainNext _ hrst hst | drainLast hrst hst | drainWait hrst hst | doneHold hrst hst
  | abortHold hrst hst => simp [hrst, hst]

/-- UNDERRUN steers no operation: with another UNDERRUN it ends in the same state but for UNDERRUN (R18). -/
theorem exec_underrun {i : Instr} {s t : State} (b : Bool) (h : exec i s = .next t) :
    ∃ c : Bool, exec i { s with underrun := b } = .next { t with underrun := c } := by
  cases i with
  | sum =>
    simp only [exec, execSum] at h ⊢
    split_ifs at h ⊢ <;> cases h <;> exact ⟨_, rfl⟩
  | drainNext =>
    simp only [exec, execDrainNext] at h ⊢
    split_ifs at h ⊢
    cases h
    exact ⟨_, rfl⟩
  | _ => cases h; exact ⟨_, rfl⟩

/-- Settles O46: the operation is selected without UNDERRUN, and performed alike with any UNDERRUN. -/
theorem underrunIsStickyAndInert : Obligations.UnderrunIsStickyAndInert := by
  refine ⟨fun _ _ => step_underrun, fun _ _ => rfl, fun s t b h => ?_⟩
  obtain ⟨i, u, hfetch, hexec, rfl⟩ := exec_of_step h
  obtain ⟨c, hc⟩ := exec_underrun b hexec
  have hfetch' : State.fetch { s with underrun := b } = .ok i := hfetch
  exact ⟨c, by rw [step_of_fetch hfetch', hc]; rfl⟩

/-! ### The outputs -/

/-- Settles O48, state by state: each output compares ST with the states in which it is 1 (R20, R22). -/
theorem outputsFollowTheState : Obligations.OutputsFollowTheState := by
  intro s
  have hidx : s.idx.val < 32 := by omega
  cases hst : s.st <;> simp [State.outputs, busyIn, hst, hidx]

end Sys2Proof.Machine
end

section
/-!
PROOFS. The record as a number in base 256 whose digit `i` is byte `i`: packing and reading back are inverse (O59).
-/

namespace Sys2Proof.Machine

/-- The bytes of a record are digits of base 256. -/
theorem byte_digit_lt (b : Vector Byte 16) : ∀ d ∈ b.toList.map BitVec.toNat, d < 256 := by
  intro d hd
  obtain ⟨x, -, rfl⟩ := List.mem_map.mp hd
  exact x.isLt

/-- Sixteen bytes fit the record, so packing loses nothing. -/
theorem packRecord_toNat (b : Vector Byte 16) :
    (packRecord b).toNat = Nat.ofDigits 256 (b.toList.map BitVec.toNat) := by
  have hlt : Nat.ofDigits 256 (b.toList.map BitVec.toNat) < 2 ^ 128 := by
    simpa using Nat.ofDigits_lt_base_pow_length (by decide) (byte_digit_lt b)
  rw [Nat.ofDigits_eq_foldr, List.foldr_map] at hlt ⊢
  exact Nat.mod_eq_of_lt hlt

/-- Byte `i` is the digit of weight `256 ^ i` (R35). -/
theorem srcByte_toNat (v : Record) (i : Nat) : (srcByte v i).toNat = v.toNat / 256 ^ i % 256 := by
  rw [srcByte, BitVec.extractLsb'_toNat, Nat.shiftRight_eq_div_pow, Nat.pow_mul]

/-- A packed byte is read back at its index. -/
@[simp] theorem srcByte_packRecord (b : Vector Byte 16) (i : Nat) (h : i < 16) : srcByte (packRecord b) i = b[i] := by
  apply BitVec.eq_of_toNat_eq
  have hdrop : (b.toList.map BitVec.toNat).drop i = b[i].toNat :: (b.toList.map BitVec.toNat).drop (i + 1) := by
    rw [List.drop_eq_getElem_cons (by simpa using h)]
    simp
  calc (srcByte (packRecord b) i).toNat
    _ = Nat.ofDigits 256 ((b.toList.map BitVec.toNat).drop i) % 256 := by
      rw [srcByte_toNat, packRecord_toNat, Nat.ofDigits_div_pow_eq_ofDigits_drop i (by decide) _ (byte_digit_lt b)]
    _ = b[i].toNat := by
      rw [hdrop, Nat.ofDigits_cons]
      simp [Nat.mod_eq_of_lt b[i].isLt]

/-- Bit `k` of a record is bit `k % 8` of its byte `k / 8` (R35). -/
theorem getLsbD_eq_srcByte (v : Record) (k : Nat) : v.getLsbD k = (srcByte v (k / 8)).getLsbD (k % 8) := by
  have hbit : k % 8 < 8 := Nat.mod_lt _ (by decide)
  simp [srcByte, hbit, Nat.div_add_mod]

/-- Records with the same sixteen bytes are the same. -/
theorem record_ext {v w : Record} (h : ∀ i < 16, srcByte v i = srcByte w i) : v = w := by
  apply BitVec.eq_of_getLsbD_eq
  intro k hk
  rw [getLsbD_eq_srcByte v, getLsbD_eq_srcByte w, h (k / 8) (by omega)]

/-- Settles O59: the packed bytes are read back as the digits of the record, and the bytes determine the record. -/
theorem recordPacking : Obligations.RecordPacking := by
  refine ⟨fun b i => srcByte_packRecord b i.val i.isLt, fun v => record_ext fun i hi => ?_⟩
  rw [srcByte_packRecord _ i hi, recordBytes, Vector.getElem_ofFn]

end Sys2Proof.Machine
end

section
/-!
PROOFS. Words and operations. The round trip of every operation (O1) and the words of the spec (O2); the rows of the two
formats as masks over the fields of a word: an FB row looks at the whole offset (O3), an OP row other than RESET's at the
whole state code (O4, O5).
-/

namespace Sys2Proof

/-! ### The round trip -/

open Laws.EncodingRoundTrip in
/-- The statement of the round trip holds of every operation. -/
theorem encodingRoundTrip_statement : ∀ i : Instr, Statement i
  | .reset => reset
  | .start => start
  | .idleWait => idleWait
  | .pollMore => pollMore
  | .pollEnd => pollEnd
  | .load => load
  | .sum => sum
  | .csum => csum
  | .writeFail => writeFail
  | .writeOk => writeOk
  | .writeWait => writeWait
  | .drainFail => drainFail
  | .drainNext => drainNext
  | .drainLast => drainLast
  | .drainWait => drainWait
  | .doneHold => doneHold
  | .abortHold => abortHold
  | .fsSync1 => fsSync1
  | .fsSync2 => fsSync2
  | .fsType => fsType
  | .fsLen => fsLen
  | .fsDir d => fsDir d
  | .fsSeq => fsSeq
  | .fsXlo x => fsXlo x
  | .fsXhi x => fsXhi x
  | .fsYlo y => fsYlo y
  | .fsYhi y => fsYhi y
  | .fsZlo => fsZlo
  | .fsZhi => fsZhi
  | .fsModeb => fsModeb
  | .fsXtilt => fsXtilt
  | .fsYtilt => fsYtilt
  | .fsNpts => fsNpts
  | .fsCs c => fsCs c

/-- Settles O1: no operation is ill formed (R60), so the hypothesis is not needed. -/
theorem encodeDecodeRoundTrip : Obligations.EncodeDecodeRoundTrip := fun i rest _ =>
  (encodingRoundTrip_statement i).2 rest

/-- Settles O2: each word is one of those the decoder's lemmas speak of. -/
theorem specWordsDecode : Obligations.SpecWordsDecode :=
  ⟨decode_start, decode_load, decodeOp_sum 15, decodeOp_write_fail 6, decode_drainLast, decode_drainNext, decodeOp_reset _,
    decode_fsSync1, decode_fsDir, decode_fsCs⟩

/-! ### Masked fields -/

/-- A field that a mask covers is read from the pattern that the masked word equals. -/
theorem extractLsb'_of_masked {n start len : Nat} {w mask pattern : BitVec n} (h : w &&& mask = pattern)
    (hcovers : mask.extractLsb' start len = BitVec.allOnes len) :
    w.extractLsb' start len = pattern.extractLsb' start len := by
  rw [← h, BitVec.extractLsb'_and, hcovers, BitVec.and_allOnes]

/-! ### The FB rows (R57) -/

/-- Every FB row compares all five bits of the offset. -/
theorem fieldRow_mask_offset : ∀ r ∈ fieldRows, r.mask.extractLsb' 8 5 = BitVec.allOnes 5 := by decide

/-- The FB rows stand in offset order. -/
theorem fieldRow_pattern_offset :
    ∀ i : FrameOffset, (fieldRows[i.val]'i.isLt).pattern.extractLsb' 8 5 = BitVec.ofNat 5 i.val := by decide

/-- An FB row matches words of its own offset alone. -/
theorem offset_of_fieldRow_matches {r : FieldRow} (hr : r ∈ fieldRows) {o : BitVec 5} {b : Byte}
    (h : r.matches (o ++ b) = true) : o = r.pattern.extractLsb' 8 5 := by
  have hmasked : (o ++ b) &&& r.mask = r.pattern := by simpa [FieldRow.matches] using h
  rw [← extractLsb'_of_masked hmasked (fieldRow_mask_offset r hr), BitVec.extractLsb'_append_eq_left]

/-- The only FB row that can match a word of offset `i` is the row of offset `i`. -/
theorem fieldRow_eq_of_matches {r : FieldRow} (hr : r ∈ fieldRows) {i : FrameOffset} {b : Byte}
    (h : r.matches (fieldWord i b) = true) : r = fieldRows[i.val]'i.isLt := by
  obtain ⟨j, hj, rfl⟩ := List.getElem_of_mem hr
  have hoffset := (offset_of_fieldRow_matches hr h).trans (fieldRow_pattern_offset ⟨j, hj⟩)
  have hval : i.val % 32 = j % 32 := by simpa using congrArg BitVec.toNat hoffset
  have hj17 : j < 17 := hj
  obtain rfl : j = i.val := by omega
  rfl

/-- An FB word of a frame offset is decoded by the row of that offset, or refused for its byte. -/
theorem decodeField_fieldWord (i : FrameOffset) (b : Byte) :
    decodeField (fieldWord i b) =
      if (fieldRows[i.val]'i.isLt).matches (fieldWord i b) then .ok ((fieldRows[i.val]'i.isLt).build b)
      else .error .wrongConstant := by
  have hbyte : (fieldWord i b).extractLsb' 0 8 = b := BitVec.extractLsb'_append_eq_right
  have hoffset : ((fieldWord i b).extractLsb' 8 5).toNat ≤ 16 := by
    rw [fieldWord, BitVec.extractLsb'_append_eq_left, BitVec.toNat_ofNat]
    omega
  unfold decodeField
  split
  next r hfind =>
    have hmatches : r.matches (fieldWord i b) = true := by simpa using List.find?_some hfind
    rw [← fieldRow_eq_of_matches (List.mem_of_find?_eq_some hfind) hmatches, if_pos hmatches, hbyte]
  next hfind =>
    have hnone := List.find?_eq_none.mp hfind _ (List.getElem_mem i.isLt)
    rw [if_neg hnone, if_pos hoffset]

/-- FB words of one offset are told apart by their bytes. -/
theorem fieldWord_inj {i : FrameOffset} {b k : Byte} : fieldWord i b = fieldWord i k ↔ b = k :=
  BitVec.append_right_inj _

/-- An FB word of a constant offset, whose row compares every bit, names its operation at the constant alone. -/
theorem decodeField_constant (i : FrameOffset) (k : Byte) (op : Instr)
    (hrow : fieldRows[i.val]'i.isLt = ⟨0x1FFF, fieldWord i k, fun _ => op⟩) (b : Byte) :
    decodeField (fieldWord i b) = if b = k then .ok op else .error .wrongConstant := by
  have hmatches : (fieldRows[i.val]'i.isLt).matches (fieldWord i b) = decide (b = k) := by
    rw [hrow, FieldRow.matches, show (0x1FFF : BitVec 13) = BitVec.allOnes 13 from rfl, BitVec.and_allOnes,
      Bool.beq_eq_decide_eq]
    simp only [fieldWord_inj]
  rw [decodeField_fieldWord, hmatches, hrow]
  simp only [decide_eq_true_eq]

/-- An FB word of an offset above 16 matches no row (R39). -/
theorem decodeField_above (o : BitVec 5) (b : Byte) (ho : 16 < o.toNat) :
    decodeField (o ++ b) = .error .noSuchOffset := by
  have hpattern : ∀ r ∈ fieldRows, (r.pattern.extractLsb' 8 5).toNat ≤ 16 := by decide
  have hnone : fieldRows.find? (fun r => r.matches (o ++ b)) = none := by
    rw [List.find?_eq_none]
    intro r hr hmatches
    have hle := hpattern r hr
    rw [← offset_of_fieldRow_matches hr hmatches] at hle
    omega
  rw [decodeField, hnone, BitVec.extractLsb'_append_eq_left]
  exact if_neg (by omega)

/-- Settles O3: one row per frame offset, comparing the whole word or the offset alone. -/
theorem fieldWordsNameTheirOffset : Obligations.FieldWordsNameTheirOffset := fun b =>
  ⟨decodeField_constant 0 0x55 .fsSync1 rfl b, decodeField_constant 1 0xAA .fsSync2 rfl b,
    decodeField_constant 2 0x82 .fsType rfl b, decodeField_constant 3 0x0C .fsLen rfl b, decodeField_dir b,
    decodeField_constant 5 0x00 .fsSeq rfl b, decodeField_xlo b, decodeField_xhi b, decodeField_ylo b, decodeField_yhi b,
    decodeField_constant 10 0x00 .fsZlo rfl b, decodeField_constant 11 0x00 .fsZhi rfl b,
    decodeField_constant 12 0xB0 .fsModeb rfl b, decodeField_constant 13 0x00 .fsXtilt rfl b,
    decodeField_constant 14 0x00 .fsYtilt rfl b, decodeField_constant 15 0x01 .fsNpts rfl b, decodeField_cs b,
    fun o => decodeField_above o b⟩

/-! ### The OP rows (R56, R57) -/

/-- Settles O4: a word that two rows match makes their patterns agree on the bits both look at; under one condition no two
rows do. -/
theorem opRowsDisjoint : Obligations.OpRowsDisjoint := by
  intro w c r1 r2 h1 h2 hm1 hm2
  have hrows : ∀ r1 ∈ opRows, ∀ r2 ∈ opRows, r1.cond = r2.cond →
      r1.pattern &&& r2.mask = r2.pattern &&& r1.mask → r1 = r2 := by decide
  simp only [OpRow.matches, Bool.and_eq_true, beq_iff_eq] at hm1 hm2
  obtain ⟨hw1, hc1⟩ := hm1
  obtain ⟨hw2, hc2⟩ := hm2
  refine hrows r1 h1 r2 h2 (hc1.trans hc2.symm) ?_
  rw [← hw1, ← hw2, BitVec.and_assoc, BitVec.and_assoc, BitVec.and_comm r1.mask]

/-- Settles O5: every row but RESET's compares the whole state code, with a code from 0 to 8 (R10). -/
theorem reservedStateCodesHaveNoOperation : Obligations.ReservedStateCodesHaveNoOperation := by
  intro w c hcode hc
  have hrows : ∀ r ∈ opRows, r.cond ≠ .reset →
      r.mask.extractLsb' 5 4 = BitVec.allOnes 4 ∧ (r.pattern.extractLsb' 5 4).toNat ≤ 8 := by decide
  have hnone : opRows.find? (fun r => r.matches w c) = none := by
    rw [List.find?_eq_none]
    intro r hr hmatches
    simp only [OpRow.matches, Bool.and_eq_true, beq_iff_eq] at hmatches
    obtain ⟨hmasked, rfl⟩ := hmatches
    obtain ⟨hmask, hle⟩ := hrows r hr hc
    rw [← extractLsb'_of_masked hmasked hmask] at hle
    omega
  rw [decodeOp, hnone]

end Sys2Proof
end

section
/-!
PROOFS. The operation of a step: the decision list (O6), the two operations that can stop (O25) and the steps, which never
do (O51), and the placed operation (O8).
-/

namespace Sys2Proof.Machine

/-! ### The selected operation (R56) -/

/-- Settles O6: RESET comes first, then each state's own lines (`fetch_idle` to `fetch_abort`); no line is missing. -/
theorem selectionFollowsTheDecisionList : Obligations.SelectionFollowsTheDecisionList := by
  intro s
  cases hrst : s.now.rst with
  | true => exact fetch_rst hrst
  | false =>
    cases hst : s.st with
    | idle => exact fetch_idle hst hrst
    | poll => exact fetch_poll hst hrst
    | load => exact fetch_load hst hrst
    | sum => exact fetch_sum hst hrst
    | csum => exact fetch_csum hst hrst
    | write => exact fetch_write hst hrst
    | drain =>
      have hnext : s.idx = 16 ↔ ¬ s.idx.val < 16 := by
        rw [Fin.ext_iff]
        show s.idx.val = 16 ↔ ¬ s.idx.val < 16
        omega
      rw [fetch_drain hst hrst]
      simp only [hnext, ite_not, Bool.false_eq_true, if_false]
    | done => exact fetch_done hst hrst
    | abort => exact fetch_abort hst hrst

/-- SUM is selected in ST = SUM alone. -/
theorem st_of_fetch_sum {s : State} (h : s.fetch = .ok .sum) : s.st = .sum := by
  rw [selectionFollowsTheDecisionList s, Except.ok.injEq] at h
  cases hst : s.st with
  | sum => rfl
  | _ => rw [hst] at h; dsimp only at h; split_ifs at h

/-- DRAIN.NEXT is selected at an IDX below 16 alone. -/
theorem idx_of_fetch_drainNext {s : State} (h : s.fetch = .ok .drainNext) : s.idx.val < 16 := by
  rw [selectionFollowsTheDecisionList s, Except.ok.injEq] at h
  cases hst : s.st with
  | drain => rw [hst] at h; dsimp only at h; split_ifs at h; assumption
  | _ => rw [hst] at h; dsimp only at h; split_ifs at h

/-! ### The operations that stop (R59) -/

/-- Settles O25: outside its guard each of the two operations answers the fault. -/
theorem sumOutsideTheWindowIsStuck : Obligations.SumOutsideTheWindowIsStuck := by
  intro s
  refine ⟨fun hidx => ?_, fun hidx => ?_⟩
  · exact dif_neg (by omega)
  · exact dif_neg (by simp [hidx])

/-- An operation stops only where SUM is outside the window or DRAIN.NEXT is at IDX 16 (R59). -/
theorem exec_answers_next (i : Instr) (s : State) (hsum : i = .sum → 4 ≤ s.idx.val ∧ s.idx.val ≤ 15)
    (hdrain : i = .drainNext → s.idx.val < 16) : ∃ t, exec i s = .next t := by
  cases i with
  | sum =>
    simp only [exec, execSum, dif_pos (hsum rfl)]
    split_ifs <;> exact ⟨_, rfl⟩
  | drainNext => exact ⟨_, dif_pos (hdrain rfl)⟩
  | _ => exact ⟨_, rfl⟩

/-- Settles O51: the decision list always selects an operation, and the two that can stop are selected only where they do
not. -/
theorem stepNeverStops : Obligations.StepNeverStops := by
  rintro s ⟨-, hwindow, -⟩
  obtain ⟨i, hfetch⟩ : ∃ i, s.fetch = .ok i := ⟨_, selectionFollowsTheDecisionList s⟩
  have hsum : i = .sum → 4 ≤ s.idx.val ∧ s.idx.val ≤ 15 := fun e => hwindow (st_of_fetch_sum (e ▸ hfetch))
  have hdrain : i = .drainNext → s.idx.val < 16 := fun e => idx_of_fetch_drainNext (e ▸ hfetch)
  obtain ⟨t, ht⟩ := exec_answers_next i s hsum hdrain
  exact ⟨t.advance, by rw [step_of_fetch hfetch, ht]; rfl⟩

/-! ### Placing -/

/-- Under the levels of its placement the operation is selected at IDX `j`. -/
abbrev SelectedAt (i : Instr) (j : FrameOffset) : Prop :=
  decodeOp (Sys2Proof.selectWord (placement i).1 j) (sampleCond (placement i).1 (placement i).2.2) = .ok i

/-- Each of the seventeen OP operations is selected at the lowest IDX of its placement. -/
theorem selectedAt_placement : ∀ i ∈ ([.reset, .start, .idleWait, .pollMore, .pollEnd, .load, .sum, .csum, .writeFail,
    .writeOk, .writeWait, .drainFail, .drainNext, .drainLast, .drainWait, .doneHold, .abortHold] : List Instr),
    SelectedAt i (placement i).2.1 := by decide

/-- The IDX that a word names is kept only where it selects the operation. -/
theorem selectedAt_placedIdx {i : Instr} (w : Nat) (hlowest : SelectedAt i (placement i).2.1) :
    SelectedAt i (placedIdx i w) := by
  simp only [placedIdx]
  split_ifs with hlt hkept
  · exact hkept.1
  · exact hlowest
  · exact hlowest

/-- Settles O8: the next step samples the placed levels first, and in both choices of `placedIdx` they select the operation. -/
theorem placedOperationIsSelected : Obligations.PlacedOperationIsSelected := by
  intro s nbits w i hdec hi
  have hplaced : s.withFetchWord nbits w = s.place i (w % 2 ^ nbits) := by rw [State.withFetchWord, hdec]
  rw [hplaced]
  exact selectedAt_placedIdx _ (selectedAt_placement i hi)

end Sys2Proof.Machine
end

section
/-!
PROOFS. The formats of data: LOAD as a run of the field selector (O23), the STREAM frame in full and its fields (O35), the
two shorthands of a record (O60), and the STATUS and CTRL groups (O49, O50).
-/

namespace Sys2Proof.Machine

/-! ### LOAD as a run of the field selector -/

/-- What a run of the field selector over some offsets leaves in the frame: there the selected byte, elsewhere the old one. -/
theorem foldl_selectField_get (is : List FrameOffset) (s : State) (j : FrameOffset) :
    (is.foldl State.selectField s).f[j] = if j ∈ is then fieldByte s.mode s.now.srcData s.acc j else s.f[j] := by
  induction is generalizing s with
  | nil => rfl
  | cons i is ih =>
    rw [List.foldl_cons, ih]
    by_cases hmem : j ∈ is
    · simp [hmem]
    · by_cases hij : j = i
      · simp [hij]
      · have hne : i.val ≠ j.val := fun e => hij (Fin.ext e.symm)
        simp [hmem, hij, hne]

/-- A run of the field selector writes the frame alone. -/
theorem foldl_selectField (is : List FrameOffset) (s : State) :
    is.foldl State.selectField s = { s with f := (is.foldl State.selectField s).f } := by
  induction is generalizing s with
  | nil => rfl
  | cons i is ih => rw [List.foldl_cons, ih]; rfl

/-- The offsets that LOAD fills, in order (R66, R67). -/
def loadOffsets : List FrameOffset := [0, 1, 2, 3, 4, 5, 6, 7, 8, 9, 10, 11, 12, 13, 14, 15]

theorem mem_loadOffsets : ∀ i : FrameOffset, i ∈ loadOffsets ↔ i ≠ 16 := by decide

/-- The field selector run over the offsets of LOAD fills the frame as LOAD does. -/
theorem foldl_selectField_load (s : State) : loadOffsets.foldl State.selectField s = s.fillFields := by
  rw [foldl_selectField]
  refine congrArg (fun f => { s with f := f }) (frame_ext fun i => ?_)
  rw [foldl_selectField_get, fillFrame_get]
  by_cases hi : i = 16
  · simp [hi, mem_loadOffsets]
  · simp [hi, mem_loadOffsets, fieldByte_acc s.mode s.now.srcData s.acc 0 i hi]

/-- Settles O23: exec of the field-selector operation of offset `i` is `selectField i`, so the run is the one over
`loadOffsets`. -/
theorem loadIsTheSixteenFieldOperations : Obligations.LoadIsTheSixteenFieldOperations := by
  intro s t d x1 x2 y1 y2 h
  have hframe : t.f = s.fillFields.f := by cases h; rfl
  rw [hframe]
  exact congrArg Host.Outcome.next (foldl_selectField_load s)

/-! ### A STREAM frame in full (R66, R92) -/

/-- The seventeen bytes of the STREAM frame of a record, its checksum in closed form (R66, R92). -/
def streamFrame (v : Record) : Frame :=
  #v[0x55, 0xAA, 0x82, 0x0C, srcByte v 4, 0x00, srcByte v 6, srcByte v 7, srcByte v 8, srcByte v 9, 0x00, 0x00, 0xB0,
    0x00, 0x00, 0x01, streamChecksum v]

/-- The constants of the window add up to `0xB1` (R92). -/
theorem ck_streamFrame (v : Record) : ck (streamFrame v) = streamChecksum v := by
  refine congrArg (BitVec.ofNat 8) ?_
  simp [streamFrame]
  omega

/-- The STREAM encoding of a record, byte by byte (R65, R66, R92). -/
theorem encodeFrame_stream (v : Record) : encodeFrame .stream v = streamFrame v := by
  have hfields : ∀ i : FrameOffset, i ≠ 16 → fieldByte .stream v 0 i = (streamFrame v)[i] :=
    forall_offset (by simp [streamFrame])
  have hbytes : ∀ i : FrameOffset, i ≠ 16 → (encodeFrame .stream v)[i] = (streamFrame v)[i] :=
    fun i hi => (encodeFrame_get .stream v i hi).trans (hfields i hi)
  have hck : ck (encodeFrame .stream v) = ck (streamFrame v) :=
    ck_congr _ _ fun i _ h15 => hbytes i (by rintro rfl; simp at h15)
  apply frame_ext
  intro i
  by_cases hi : i = 16
  · subst hi
    exact (encodeFrame_cs .stream v).trans (hck.trans (ck_streamFrame v))
  · exact hbytes i hi

/-- Settles O35: the words of the copied offsets and the checksum decode at every byte, those of the constant offsets are
closed. -/
theorem streamFrameFieldsDecode : Obligations.StreamFrameFieldsDecode := by
  intro v
  rw [encodeFrame_stream]
  show [decodeField (fieldWord 0 0x55), decodeField (fieldWord 1 0xAA), decodeField (fieldWord 2 0x82),
    decodeField (fieldWord 3 0x0C), decodeField (fieldWord 4 (srcByte v 4)), decodeField (fieldWord 5 0x00),
    decodeField (fieldWord 6 (srcByte v 6)), decodeField (fieldWord 7 (srcByte v 7)),
    decodeField (fieldWord 8 (srcByte v 8)), decodeField (fieldWord 9 (srcByte v 9)),
    decodeField (fieldWord 10 0x00), decodeField (fieldWord 11 0x00), decodeField (fieldWord 12 0xB0),
    decodeField (fieldWord 13 0x00), decodeField (fieldWord 14 0x00), decodeField (fieldWord 15 0x01),
    decodeField (fieldWord 16 (streamChecksum v))] = _
  rw [decodeField_dir, decodeField_xlo, decodeField_xhi, decodeField_ylo, decodeField_yhi, decodeField_cs]
  rfl

/-- Sixteen bytes packed into a record are its bytes (R35). -/
theorem recordBytes_packRecord (b : Vector Byte 16) : recordBytes (packRecord b) = b := by
  apply Vector.ext
  intro i hi
  rw [recordBytes, Vector.getElem_ofFn, srcByte_packRecord b i hi]

/-- Settles O60: the literal holds the constants, and its free bytes are those that the STREAM frame copies. -/
theorem penAndLitAreEquivalent : Obligations.PenAndLitAreEquivalent := by
  intro d x y
  rw [tableWF, equivalentInputs, recordBytes_packRecord, encodeFrame_stream, beq_iff_eq]
  refine ⟨?_, ?_⟩
  · simp [bytesWF, litBytes]
  · simp only [streamFrame, srcByte_packRecord, Nat.reduceLT]
    rfl

/-! ### The host's groups -/

/-- Settles O49: the word is the fields put side by side. -/
theorem statusWordFields : Obligations.StatusWordFields := by
  intro o
  refine ⟨?_, ?_, ?_⟩
  · exact BitVec.extractLsb'_append_eq_right
  · rw [Outputs.status, BitVec.extractLsb'_append_eq_of_le (by decide)]
    exact BitVec.extractLsb'_append_eq_right
  · simp only [Outputs.status, BitVec.getLsbD_append]
    simp

/-- Settles O50, at each of the four values of the group. -/
theorem ctrlCommands : Obligations.CtrlCommands := by
  intro x
  unfold ctrlWord
  cases x.mode <;> cases x.start <;> decide

end Sys2Proof.Machine
end

section
/-!
PROOFS. The checksum of a frame: its value over the natural numbers (O27), the window byte by byte (O29), an accumulator
of another width (O28).
-/

namespace Sys2Proof.Machine

/-! ### A frame with one byte written -/

/-- Writing an offset leaves every other offset alone. -/
theorem set_get_ne (f : Frame) (b : Byte) {i j : FrameOffset} (h : j ≠ i) : (f.set i b)[j] = f[j] :=
  Vector.getElem_set_ne _ _ fun e => h (Fin.ext e.symm)

/-- Writing a header byte leaves the checksum alone (R68 to R71). -/
theorem ck_set_header (f : Frame) (i : FrameOffset) (b : Byte) (hi : i.val < 4) : ck (f.set i b) = ck f :=
  ck_congr _ _ fun j h4 _ => set_get_ne f b (by rintro rfl; omega)

/-- Writing a window byte changes every sum past it by the change of that byte: there the byte counts once. -/
theorem windowSumBelow_set (f : Frame) (i : FrameOffset) (b : Byte) (h4 : 4 ≤ i.val) (h15 : i.val ≤ 15) {n : Nat}
    (hn : i.val + 1 ≤ n) : windowSumBelow (f.set i b) n + f[i].toNat = windowSumBelow f n + b.toNat := by
  induction n, hn using Nat.le_induction with
  | base =>
    have hbefore : windowSumBelow (f.set i b) i.val = windowSumBelow f i.val :=
      windowSumBelow_congr _ _ _ fun j hj _ _ => Vector.getElem?_set_ne _ (by omega)
    have hbyte : (f.set i b)[i] = b := Vector.getElem_set_self _
    rw [windowSumBelow_window _ i h4 h15, windowSumBelow_window _ i h4 h15, hbefore, hbyte]
    omega
  | succ n hn ih =>
    have hbyte : (f.set i b)[n]? = f[n]? := Vector.getElem?_set_ne _ (by omega)
    simp only [windowSumBelow, hbyte]
    omega

/-- Writing a window byte changes the checksum by the change of that byte (R90). -/
theorem ck_set_window (f : Frame) (i : FrameOffset) (b : Byte) (h4 : 4 ≤ i.val) (h15 : i.val ≤ 15) :
    ck (f.set i b) = ck f - f[i] + b := by
  have hsum : ck (f.set i b) + f[i] = ck f + b := by
    have h := congrArg (BitVec.ofNat 8) (windowSumBelow_set f i b h4 h15 (n := 16) (by omega))
    simpa only [BitVec.ofNat_add, BitVec.ofNat_toNat, BitVec.setWidth_eq, ← ck_eq_windowSum] using h
  rw [sub_add_eq_add_sub, ← hsum, add_sub_cancel_right]

/-- Settles O29: the header and offset 16 are outside the window, and each window byte counts once. -/
theorem checksumWindowIsExact : Obligations.ChecksumWindowIsExact := ⟨ck_congr, ck_set_window⟩

/-! ### The stored checksum and the width of the accumulator -/

/-- Settles O27: CSUM stores the low byte of the window's sum at an offset the checksum does not cover. -/
theorem checksumStoredIsCk : Obligations.ChecksumStoredIsCk := by
  refine ⟨fun f => BitVec.toNat_ofNat _ _, fun s t hacc h => ?_⟩
  cases h
  simpa using low_byte_eq_ck s.acc s.f hacc

/-- Settles O28: the low byte of a wrapping sum is the sum of the low bytes, so the fold may be taken at 8 bits. -/
theorem accumulatorWidthIsNotObservable : Obligations.AccumulatorWidthIsNotObservable := by
  intro n f hn
  have hstep : ∀ (a : BitVec n) (b : Byte), a.setWidth 8 + b = (a + b.setWidth n).setWidth 8 := fun a b => by
    rw [BitVec.setWidth_add _ _ hn, BitVec.setWidth_setWidth_of_le _ hn, BitVec.setWidth_eq]
  rw [← List.foldl_hom (BitVec.setWidth 8) hstep, ck_eq_sum]
  simp

end Sys2Proof.Machine
end

section
/-!
PROOFS. The field selector, an operation at a time: the header (O19), the copied fields (O20), the constant fields
(O21), the checksum (O22).
-/

namespace Sys2Proof.Machine

/-- The operation of a constant offset: the constant in STREAM, the byte of the same index in TABLE (R55). -/
theorem selectField_constant (s : State) (i : FrameOffset) (k : Byte) (hi : i ≠ 16)
    (hk : ∀ v a, fieldByte .stream v a i = k) :
    s.selectField i = s.writeF i (if s.mode = .stream then k else srcByte s.now.srcData i.val) := by
  unfold State.selectField
  cases s.mode with
  | stream => rw [hk, if_pos rfl]
  | table => rw [fieldByte_table _ _ i hi, if_neg (by decide)]

/-- The operation of a copied offset: the byte of the same index in both modes (R55). -/
theorem selectField_copied (s : State) (i : FrameOffset) (hi : i ≠ 16)
    (hsrc : ∀ v a, fieldByte .stream v a i = srcByte v i.val) :
    s.selectField i = s.writeF i (srcByte s.now.srcData i.val) := by
  unfold State.selectField
  cases s.mode with
  | stream => rw [hsrc]
  | table => rw [fieldByte_table _ _ i hi]

/-- Settles O19: the offsets of the header are constant ones, below the window. -/
theorem headerFieldsTakeTheirByte : Obligations.HeaderFieldsTakeTheirByte := by
  intro s
  refine ⟨?_, ?_, ?_, ?_, fun i b hi => ⟨rfl, ck_set_header s.f i b hi⟩⟩
  · exact congrArg _ (selectField_constant s 0 _ (by decide) fieldByte_stream_sync1)
  · exact congrArg _ (selectField_constant s 1 _ (by decide) fieldByte_stream_sync2)
  · exact congrArg _ (selectField_constant s 2 _ (by decide) fieldByte_stream_type)
  · exact congrArg _ (selectField_constant s 3 _ (by decide) fieldByte_stream_len)

/-- Settles O20: the copied offsets are window offsets, and the meaning does not read the byte of the word. -/
theorem copiedFieldsTakeTheSourceByte : Obligations.CopiedFieldsTakeTheSourceByte := by
  intro s w
  refine ⟨?_, ?_, ?_, ?_, ?_, fun i b hi => ?_⟩
  · exact congrArg _ (selectField_copied s 4 (by decide) fieldByte_stream_dir)
  · exact congrArg _ (selectField_copied s 6 (by decide) fieldByte_stream_xlo)
  · exact congrArg _ (selectField_copied s 7 (by decide) fieldByte_stream_xhi)
  · exact congrArg _ (selectField_copied s 8 (by decide) fieldByte_stream_ylo)
  · exact congrArg _ (selectField_copied s 9 (by decide) fieldByte_stream_yhi)
  · have hwindow : ∀ n ∈ [4, 6, 7, 8, 9], 4 ≤ n ∧ n ≤ 15 := by decide
    exact ck_set_window s.f i b (hwindow _ hi).1 (hwindow _ hi).2

/-- Settles O21: the seven offsets are constant ones inside the window. -/
theorem constantPayloadFieldsTakeTheirByte : Obligations.ConstantPayloadFieldsTakeTheirByte := by
  intro s
  refine ⟨?_, ?_, ?_, ?_, ?_, ?_, ?_, fun i b hi => ?_⟩
  · exact congrArg _ (selectField_constant s 5 _ (by decide) fieldByte_stream_seq)
  · exact congrArg _ (selectField_constant s 10 _ (by decide) fieldByte_stream_zlo)
  · exact congrArg _ (selectField_constant s 11 _ (by decide) fieldByte_stream_zhi)
  · exact congrArg _ (selectField_constant s 12 _ (by decide) fieldByte_stream_modeb)
  · exact congrArg _ (selectField_constant s 13 _ (by decide) fieldByte_stream_xtilt)
  · exact congrArg _ (selectField_constant s 14 _ (by decide) fieldByte_stream_ytilt)
  · exact congrArg _ (selectField_constant s 15 _ (by decide) fieldByte_stream_npts)
  · have hwindow : ∀ n ∈ [5, 10, 11, 12, 13, 14, 15], 4 ≤ n ∧ n ≤ 15 := by decide
    exact ck_set_window s.f i b (hwindow _ hi).1 (hwindow _ hi).2

/-- Settles O22: both modes name the accumulator's low byte at offset 16, which the checksum does not cover. -/
theorem checksumFieldTakesTheLowByte : Obligations.ChecksumFieldTakesTheLowByte := by
  intro s w
  refine ⟨?_, rfl, ?_, ck_set_cs _ _⟩
  · exact congrArg (fun b => Host.Outcome.next (s.writeF 16 b)) (fieldByte_cs s.mode s.now.srcData s.acc)
  · exact BitVec.extractLsb'_toNat _ _ _

end Sys2Proof.Machine
end

section
/-!
PROOFS. Encode as a function of the mode and the record: STREAM frames (O30, O31), TABLE frames (O32), what each depends
on (O33), one frame in both modes (O34); and LOAD, which fills the frame with the bytes of Encode (O17, O18).
-/

namespace Sys2Proof.Machine

/-! ### STREAM frames -/

/-- Settles O31: the bytes of `streamFrame`. -/
theorem streamFramesHoldTheConstants : Obligations.StreamFramesHoldTheConstants := by
  intro v
  rw [encodeFrame_stream]
  exact ⟨rfl, rfl, rfl, rfl, rfl, rfl, rfl, rfl, rfl, rfl, rfl, (ck_streamFrame v).symm⟩

/-- The last byte of a STREAM frame in closed form (R92). -/
theorem encodeFrame_stream_cs (v : Record) : (encodeFrame .stream v)[16] = streamChecksum v := by
  rw [encodeFrame_stream]
  rfl

/-- The closed form as a sum of bytes that wraps at 8 bits (R89, R92). -/
theorem streamChecksum_eq_sum (v : Record) :
    streamChecksum v = 0xB1 + srcByte v 4 + srcByte v 6 + srcByte v 7 + srcByte v 8 + srcByte v 9 := by
  simp only [streamChecksum, BitVec.ofNat_add, BitVec.ofNat_toNat, BitVec.setWidth_eq]
  rfl

/-- Settles O30: byte 4 is one term of a sum that wraps at 8 bits. -/
theorem streamChecksumClosedForm : Obligations.StreamChecksumClosedForm := by
  refine ⟨fun v => ?_, encodeFrame_stream_cs, fun v w d hdir hrest => ?_⟩
  · rw [encodeFrame_stream_cs]
    exact BitVec.toNat_ofNat _ _
  · simp only [encodeFrame_stream_cs, streamChecksum_eq_sum, hdir, hrest 6 (by decide), hrest 7 (by decide),
      hrest 8 (by decide), hrest 9 (by decide)]
    ac_rfl

/-! ### TABLE frames -/

/-- A TABLE frame passes the bytes of the literal through (R65, R67). -/
theorem encodeFrame_table_get (v : Record) {i : Nat} (hi : i < 16) : (encodeFrame .table v)[i] = srcByte v i := by
  have hne : (⟨i, by omega⟩ : FrameOffset) ≠ 16 := Fin.ne_of_val_ne hi.ne
  exact (encodeFrame_get .table v _ hne).trans (fieldByte_table v 0 _ hne)

/-- The first sixteen bytes of a TABLE frame are the literal (R67). -/
theorem encodeFrame_table_bytes (v : Record) :
    Vector.ofFn (fun i : Fin 16 => (encodeFrame .table v)[i.val]) = recordBytes v :=
  congrArg Vector.ofFn (funext fun i => encodeFrame_table_get v i.isLt)

/-- Settles O32: the constants of the frame and of the literal are asked of the same sixteen bytes. -/
theorem tableFramesHoldTheConstantsIffWellFormed : Obligations.TableFramesHoldTheConstantsIffWellFormed := by
  intro v
  refine ⟨encodeFrame_cs .table v, ?_⟩
  rw [frameConstants, encodeFrame_table_bytes, tableWF]

/-- Settles O33: `streamFrame` names five record bytes alone; a TABLE frame shows every byte of the literal. -/
theorem streamIgnoresTheUnusedBytes : Obligations.StreamIgnoresTheUnusedBytes := by
  refine ⟨fun v w h => ?_, fun v w i hdiff heq => hdiff ?_⟩
  · rw [encodeFrame_stream, encodeFrame_stream]
    simp only [streamFrame, streamChecksum, h 4 (by decide), h 6 (by decide), h 7 (by decide), h 8 (by decide),
      h 9 (by decide)]
  · simp only [← encodeFrame_table_get _ i.isLt, heq]

/-! ### Equivalent inputs -/

/-- The first sixteen bytes determine an encoded frame, its checksum among it (R65). -/
theorem encodeFrame_congr {m n : Mode} {v w : Record}
    (h : ∀ (i : Nat) (_ : i < 16), (encodeFrame m v)[i] = (encodeFrame n w)[i]) :
    encodeFrame m v = encodeFrame n w := by
  have hck : ck (encodeFrame m v) = ck (encodeFrame n w) := ck_congr _ _ fun i _ h15 => h i.val (by omega)
  apply Vector.ext
  intro i hi
  by_cases hlast : i = 16
  · subst hlast
    exact (encodeFrame_cs m v).trans (hck.trans (encodeFrame_cs n w).symm)
  · exact h i (by omega)

/-- Two inputs are equivalent where the literal has the bytes of the STREAM frame below offset 16 (R97). -/
theorem equivalentInputs_iff (s l : Record) :
    equivalentInputs s l = true ↔ ∀ (i : Nat) (_ : i < 16), srcByte l i = (encodeFrame .stream s)[i] := by
  simp [equivalentInputs, recordBytes, Vector.ext_iff]

/-- The literal holds the eleven constants (R48). -/
theorem tableWF_iff (l : Record) : tableWF l = true ↔
    srcByte l 0 = 0x55 ∧ srcByte l 1 = 0xAA ∧ srcByte l 2 = 0x82 ∧ srcByte l 3 = 0x0C ∧ srcByte l 5 = 0x00 ∧
      srcByte l 10 = 0x00 ∧ srcByte l 11 = 0x00 ∧ srcByte l 12 = 0xB0 ∧ srcByte l 13 = 0x00 ∧ srcByte l 14 = 0x00 ∧
      srcByte l 15 = 0x01 := by
  simp [tableWF, bytesWF, recordBytes, and_assoc]

/-- The eleven constants and the five copied bytes are the sixteen bytes of a STREAM frame (R48, R97). -/
theorem equivalentInputs_iff_tableWF (s l : Record) :
    equivalentInputs s l = true ↔ tableWF l = true ∧ ∀ i ∈ [4, 6, 7, 8, 9], srcByte l i = srcByte s i := by
  rw [equivalentInputs_iff, encodeFrame_stream, tableWF_iff]
  constructor
  · intro h
    simp [streamFrame, h]
  · rintro ⟨hconst, hsrc⟩ i hi
    interval_cases i <;> simp [streamFrame, hconst, hsrc]

/-- Equivalent inputs give one frame in the two modes (R97). -/
theorem encodeFrame_of_equivalentInputs {s l : Record} (h : equivalentInputs s l = true) :
    encodeFrame .table l = encodeFrame .stream s :=
  encodeFrame_congr fun i hi => (encodeFrame_table_get l hi).trans ((equivalentInputs_iff s l).mp h i hi)

/-- Settles O34: a well-formed literal is equivalent to itself. -/
theorem equivalentInputsEncodeAlike : Obligations.EquivalentInputsEncodeAlike := by
  refine ⟨equivalentInputs_iff_tableWF, fun s l => encodeFrame_of_equivalentInputs, fun l hwf => ?_⟩
  have hself : equivalentInputs l l = true := (equivalentInputs_iff_tableWF l l).mpr ⟨hwf, fun _ _ => rfl⟩
  exact (encodeFrame_of_equivalentInputs hself).symm

/-! ### LOAD -/

/-- LOAD fills the frame with the bytes of Encode below offset 16, whatever it is filled over (R65 to R67). -/
theorem fillFrame_get_encodeFrame (m : Mode) (v : Record) (old : Frame) {i : Nat} (hi : i < 16) :
    (fillFrame m v old)[i] = (encodeFrame m v)[i] := by
  have hne : (⟨i, by omega⟩ : FrameOffset) ≠ 16 := Fin.ne_of_val_ne hi.ne
  have hfill := fillFrame_get m v old ⟨i, by omega⟩
  rw [if_neg hne] at hfill
  exact hfill.trans (encodeFrame_get m v _ hne).symm

/-- What LOAD leaves: every write of R66, R67 and R123. -/
def State.loaded (s : State) : State :=
  { s with
    f := fillFrame s.mode s.now.srcData s.f, acc := 0, idx := 4, underrun := s.underrun || s.now.srcShort, st := .sum,
    trace := s.trace ++ [.next s.now.srcData] }

/-- LOAD always answers, with the state that `State.loaded` writes out. -/
theorem exec_load (s : State) : exec .load s = .next s.loaded := by
  simp only [exec, execLoad, Host.Outcome.next.injEq]
  apply State.ext_fields <;> simp [State.loaded]

/-- Settles O17: below offset 16 the frame is `streamFrame`. -/
theorem loadStreamFillsTheTemplate : Obligations.LoadStreamFillsTheTemplate := by
  intro s hmode
  have hget : ∀ (i : Nat) (_ : i < 16), s.loaded.f[i] = (streamFrame s.now.srcData)[i] := fun i hi => by
    simp only [State.loaded, hmode, fillFrame_get_encodeFrame _ _ _ hi, encodeFrame_stream]
  exact ⟨s.loaded, exec_load s, hget 0 (by decide), hget 1 (by decide), hget 2 (by decide), hget 3 (by decide),
    hget 4 (by decide), hget 5 (by decide), hget 6 (by decide), hget 7 (by decide), hget 8 (by decide),
    hget 9 (by decide), hget 10 (by decide), hget 11 (by decide), hget 12 (by decide), hget 13 (by decide),
    hget 14 (by decide), hget 15 (by decide), fillFrame_cs _ _ _, rfl⟩

/-- Settles O18: below offset 16 the frame is the literal. -/
theorem loadTablePassesTheLiteral : Obligations.LoadTablePassesTheLiteral := by
  intro s hmode
  refine ⟨s.loaded, exec_load s, fun i hi => ?_, rfl, fillFrame_cs _ _ _⟩
  simp only [State.loaded, hmode, fillFrame_get_encodeFrame _ _ _ hi, encodeFrame_table_get _ hi]

end Sys2Proof.Machine
end

section
/-!
PROOFS. The accumulator: SUM (O24), its exact sum (O26), and the fourteen steps from LOAD to WRITE (O36).
-/

namespace Sys2Proof.Machine

/-! ### SUM -/

/-- SUM at the last window offset goes to CSUM (R85). -/
theorem exec_sum_last {s : State} (h : s.idx = 15) :
    exec .sum s = .next { s with acc := s.acc + s.f[s.idx].setWidth 12, st := .csum } := by
  have hwindow : 4 ≤ s.idx.val ∧ s.idx.val ≤ 15 := by simp [h]
  simp only [exec, execSum, dif_pos hwindow, if_pos h]
  rfl

/-- SUM before the last window offset goes on to the next offset (R85). -/
theorem exec_sum_next {s : State} {j : FrameOffset} (h4 : 4 ≤ s.idx.val) (h15 : s.idx.val < 15)
    (hj : j.val = s.idx.val + 1) :
    exec .sum s = .next { s with acc := s.acc + s.f[s.idx].setWidth 12, idx := j } := by
  have hwindow : 4 ≤ s.idx.val ∧ s.idx.val ≤ 15 := by omega
  have hne : s.idx ≠ 15 := Fin.ne_of_val_ne h15.ne
  have hnext : nextOffset s.idx (by omega) = j := Fin.ext hj.symm
  simp only [exec, execSum, dif_pos hwindow, if_neg hne, hnext]
  rfl

/-- Settles O24: the two cases of SUM inside the window. -/
theorem sumAddsTheWindowByte : Obligations.SumAddsTheWindowByte :=
  fun _ h4 _ => ⟨exec_sum_last, fun _ h15 hj => exec_sum_next h4 h15 hj⟩

/-- Where SUM answers, it adds one byte to ACC and leaves the frame (R85). -/
theorem acc_and_f_of_exec_sum {s t : State} (h4 : 4 ≤ s.idx.val) (h15 : s.idx.val ≤ 15) (h : exec .sum s = .next t) :
    t.acc = s.acc + s.f[s.idx].setWidth 12 ∧ t.f = s.f := by
  by_cases hlast : s.idx = 15
  · rw [exec_sum_last hlast] at h
    cases h
    exact ⟨rfl, rfl⟩
  · have hlt : s.idx.val < 15 := lt_of_le_of_ne h15 fun e => hlast (Fin.ext e)
    rw [exec_sum_next (j := nextOffset s.idx (by omega)) h4 hlt rfl] at h
    cases h
    exact ⟨rfl, rfl⟩

/-- Settles O26: twelve bytes fit twelve bits, so the addition does not wrap. -/
theorem sumNeverOverflows : Obligations.SumNeverOverflows := by
  refine ⟨fun f n => ?_, fun s t h4 h15 hacc h => ?_⟩
  · have hle := windowSumBelow_le f n
    omega
  · obtain ⟨htacc, htf⟩ := acc_and_f_of_exec_sum h4 h15 h
    have hexact := acc_add_exact s.acc s.f s.idx h4 h15 hacc
    rw [htacc, htf]
    exact ⟨by rw [hexact, windowSumBelow_window s.f s.idx h4 h15, hacc], hexact⟩

/-! ### From LOAD to WRITE -/

/-- From a window offset SUM runs to CSUM, one byte a step, and leaves the exact sum of the window (R85, R88). -/
theorem runSteps_sum {s : State} (k : Nat) (hst : s.st = .sum) (h4 : 4 ≤ s.idx.val) (hk : s.idx.val + k = 15)
    (hacc : s.acc.toNat = windowSumBelow s.f s.idx.val) (hrst : ∀ j < k + 1, NoReset (s.levelsAt j)) :
    ∃ a : BitVec 12, a.toNat = windowSumBelow s.f 16 ∧
      runSteps (k + 1) s = .next { s with
        st := .csum, idx := 15, acc := a, inputs := s.inputs.drop (k + 1), tick := s.tick + (k + 1) } := by
  induction k generalizing s with
  | zero =>
    have hidx : s.idx = 15 := Fin.ext hk
    have hexact := acc_add_exact s.acc s.f s.idx h4 (by omega) hacc
    have hstep : step s = advanceOutcome (exec .sum s) := step_of_fetch (fetch_sum hst (hrst 0 (by omega)))
    rw [exec_sum_last hidx] at hstep
    refine ⟨s.acc + s.f[s.idx].setWidth 12, by rw [hexact, hidx]; rfl, (runSteps_succ 0 hstep).trans ?_⟩
    simp [State.advance, hidx]
  | succ k ih =>
    have hexact := acc_add_exact s.acc s.f s.idx h4 (by omega) hacc
    have hstep : step s = advanceOutcome (exec .sum s) := step_of_fetch (fetch_sum hst (hrst 0 (by omega)))
    rw [exec_sum_next (j := nextOffset s.idx (by omega)) h4 (by omega) rfl] at hstep
    obtain ⟨a, ha, hrun⟩ := ih (s := State.advance { s with
        acc := s.acc + s.f[s.idx].setWidth 12, idx := nextOffset s.idx (by omega) }) hst
      (by simp; omega) (by simp; omega) hexact
      (fun j hj => by rw [State.levelsAt_succ rfl rfl]; exact hrst (j + 1) (by omega))
    refine ⟨a, ha, (runSteps_succ (k + 1) hstep).trans (hrun.trans ?_)⟩
    simp [State.advance, Nat.add_comm, Nat.add_left_comm]

/-- A state that stands `k` steps on samples the levels of `k` steps on. -/
theorem now_eq_levelsAt {s t : State} {k : Nat} (hin : t.inputs = s.inputs.drop k) (htick : t.tick = s.tick + k) :
    t.now = s.levelsAt k := by
  simp only [State.levelsAt, State.now, hin, htick]

/-- The window of an encoded frame is that of the filled one (R65, R84). -/
theorem windowSumBelow_encodeFrame (m : Mode) (v : Record) (old : Frame) (n : Nat) :
    windowSumBelow (encodeFrame m v) n = windowSumBelow (fillFrame m v old) n := by
  rw [← set_cs_of_fill rfl, windowSumBelow_set_cs]

/-- In CSUM with the exact sum in ACC a step stores the checksum and goes to WRITE (R86, R87). -/
theorem step_csum {s : State} (hst : s.st = .csum) (hrst : s.now.rst = false)
    (hacc : s.acc.toNat = windowSumBelow s.f 16) :
    step s = .next (State.advance { s with f := s.f.set 16 (ck s.f), idx := 0, st := .write }) := by
  rw [step_of_fetch (fetch_csum hst hrst), ← low_byte_eq_ck s.acc s.f hacc]
  rfl

/-- Settles O36: LOAD leaves ACC exact, the twelve SUM keep it so, and CSUM stores the checksum in the filled frame. -/
theorem encoderComputesEncode : Obligations.EncoderComputesEncode := by
  intro s hst hrst
  have hload : step s = .next s.loaded.advance := by
    rw [step_of_fetch (fetch_load hst (hrst 0 (by decide))), exec_load]
    rfl
  obtain ⟨a, ha, hsum⟩ := runSteps_sum (s := s.loaded.advance) 11 rfl le_rfl rfl (windowSumBelow_four _).symm
    (fun j hj => by rw [State.levelsAt_succ rfl rfl]; exact hrst (j + 1) (by omega))
  refine ⟨_, (runSteps_succ 13 hload).trans ((runSteps_add 12 1 hsum).trans (runSteps_succ 0
    (step_csum rfl ?_ ha))), ?_⟩
  · rw [now_eq_levelsAt (s := s) (k := 13) (by simp [State.loaded]) (by simp [State.loaded, Nat.add_assoc])]
    exact hrst 13 (by decide)
  · have hacc : a.toNat = windowSumBelow (fillFrame s.mode s.now.srcData s.f) 16 := ha
    simp [State.loaded, hacc, set_cs_of_fill rfl, windowSumBelow_encodeFrame _ _ s.f, Nat.add_assoc]

end Sys2Proof.Machine
end

section
/-!
PROOFS. The order of events, kept by every step without a reset (O54).
-/

namespace Sys2Proof.Machine

/-- Where a trace stands at `p` and the order allows `e` next, the longer trace stands at the place after `e`. -/
theorem progressOf_append {m : Mode} {es : List Event} {e : Event} {p q : Progress} (hes : progressOf m es = some p)
    (he : Progress.after m p e = some q) : progressOf m (es ++ [e]) = some q := by
  rw [progressOf_snoc, hes]
  exact he

/-- Filling a filled frame with the same record changes nothing (R66, R67). -/
theorem fillFrame_fillFrame (m : Mode) (v : Record) (old : Frame) :
    fillFrame m v (fillFrame m v old) = fillFrame m v old := by
  apply frame_ext
  intro i
  rw [fillFrame_get, fillFrame_get]
  split_ifs <;> rfl

/-- Settles O54: the event of each operation is one the order allows where the run stands, and the frame it sends is
filled by LOAD, summed by SUM and finished by CSUM. -/
theorem eventOrderKeptByEveryStep : Obligations.EventOrderKeptByEveryStep := by
  intro s t hrst hinv h
  cases step_cases h with
  | reset hreset => exact absurd (hreset.symm.trans hrst) (by decide)
  | start _ hst =>
    have htrace : s.trace = [] := (runInv_idle hst).mp hinv
    apply (runInv_poll rfl).mpr
    simp [htrace, progressOf]
  | pollMore _ hst => exact (runInv_load rfl).mpr ((runInv_poll hst).mp hinv)
  | pollEnd _ hst =>
    exact (runInv_done rfl).mpr (progressOf_append ((runInv_poll hst).mp hinv) (Progress.after_exhausted _))
  | load _ hst =>
    have hprog := progressOf_append ((runInv_load hst).mp hinv) (Progress.after_next s.mode s.now.srcData)
    refine (runInv_sum rfl).mpr ⟨s.now.srcData, ?_, ?_, ?_, ?_⟩
    · simpa using hprog
    · simp [fillFrame_fillFrame]
    · simp
    · simp [windowSumBelow_four]
  | sumNext _ _ hst h4 h15 =>
    obtain ⟨v, hprog, hfill, -, hacc⟩ := (runInv_sum hst).mp hinv
    have hnext : 4 ≤ s.idx.val + 1 ∧ s.idx.val + 1 ≤ 15 := by omega
    exact (runInv_sum (by simpa using hst)).mpr
      ⟨v, hprog, hfill, hnext, acc_add_exact s.acc s.f s.idx h4 h15.le hacc⟩
  | sumLast _ hst hidx =>
    obtain ⟨v, hprog, hfill, ⟨h4, h15⟩, hacc⟩ := (runInv_sum hst).mp hinv
    have hexact := acc_add_exact s.acc s.f s.idx h4 h15 hacc
    have hlast : s.idx.val + 1 = 16 := by simp [hidx]
    rw [hlast] at hexact
    exact (runInv_csum rfl).mpr ⟨v, hprog, hfill, hexact⟩
  | csum _ hst =>
    obtain ⟨v, hprog, hfill, hacc⟩ := (runInv_csum hst).mp hinv
    refine (runInv_write rfl).mpr ⟨v, hprog, ?_⟩
    show s.f.set 16 (s.acc.extractLsb' 0 8) = encodeFrame s.mode v
    rw [low_byte_eq_ck s.acc s.f hacc, set_cs_of_fill hfill]
  | writeFail _ hst =>
    obtain ⟨v, hprog, hf⟩ := (runInv_write hst).mp hinv
    have hbyte : s.f[s.idx] = (encodeFrame s.mode v)[s.idx] := by rw [hf]
    exact (runInv_abort rfl).mpr (progressOf_append hprog (Progress.after_write_fail hbyte))
  | writeOk _ hst =>
    obtain ⟨v, hprog, hf⟩ := (runInv_write hst).mp hinv
    have hbyte : s.f[s.idx] = (encodeFrame s.mode v)[s.idx] := by rw [hf]
    exact (runInv_drain rfl).mpr ⟨v, progressOf_append hprog (Progress.after_write_ok hbyte), hf⟩
  | drainFail _ hst =>
    obtain ⟨v, hprog, -⟩ := (runInv_drain hst).mp hinv
    exact (runInv_abort rfl).mpr (progressOf_append hprog (Progress.after_drain_fail _ _ _))
  | drainNext hlt _ hst =>
    obtain ⟨v, hprog, hf⟩ := (runInv_drain hst).mp hinv
    exact (runInv_write rfl).mpr ⟨v, progressOf_append hprog (Progress.after_drain_next hlt), hf⟩
  | drainLast _ hst _ _ hidx =>
    obtain ⟨v, hprog, -⟩ := (runInv_drain hst).mp hinv
    rw [hidx] at hprog
    exact (runInv_poll rfl).mpr (progressOf_append hprog (Progress.after_drain_last _ v))
  | idleWait | writeWait | drainWait | doneHold | abortHold => exact hinv

end Sys2Proof.Machine
end

section
/-!
PROOFS. The transmitter: its answers in WRITE (O37) and DRAIN (O38), its waits (O42), and a frame sent whole (O43).
-/

namespace Sys2Proof.Machine

/-! ### One step of WRITE and of DRAIN, by the transport's answer (R101, R105, R142, R143) -/

section

variable {s : State}

theorem step_write_fail (hst : s.st = .write) (hrst : s.now.rst = false) (herr : s.now.txErr = true) :
    step s = .next (State.advance
      { s with eop := false, st := .abort, trace := s.trace ++ [.write s.f[s.idx] .fail] }) := by
  rw [step_of_fetch (fetch_write hst hrst), herr]
  rfl

theorem step_write_ok (hst : s.st = .write) (hrst : s.now.rst = false) (herr : s.now.txErr = false)
    (hacc : s.now.txAccept = true) :
    step s = .next (State.advance { s with st := .drain, trace := s.trace ++ [.write s.f[s.idx] .ok] }) := by
  rw [step_of_fetch (fetch_write hst hrst), herr, hacc]
  rfl

theorem step_write_wait (hst : s.st = .write) (hrst : s.now.rst = false) (herr : s.now.txErr = false)
    (hacc : s.now.txAccept = false) : step s = .next s.advance := by
  rw [step_of_fetch (fetch_write hst hrst), herr, hacc]
  rfl

theorem step_drain_fail (hst : s.st = .drain) (hrst : s.now.rst = false) (herr : s.now.txErr = true) :
    step s = .next (State.advance { s with eop := true, st := .abort, trace := s.trace ++ [.drain .fail] }) := by
  rw [step_of_fetch (fetch_drain hst hrst), herr]
  rfl

/-- Below IDX 16 DRAIN.NEXT answers, with the next offset. -/
theorem exec_drainNext {j : FrameOffset} (hlt : s.idx.val < 16) (hj : j.val = s.idx.val + 1) :
    exec .drainNext s = .next { s with idx := j, st := .write, trace := s.trace ++ [.drain .ok] } := by
  have hnext : nextOffset s.idx hlt = j := Fin.ext hj.symm
  simp only [exec, execDrainNext, dif_pos hlt, hnext]
  rfl

theorem step_drain_next {j : FrameOffset} (hst : s.st = .drain) (hrst : s.now.rst = false)
    (herr : s.now.txErr = false) (hdone : s.now.txDrained = true) (hlt : s.idx.val < 16)
    (hj : j.val = s.idx.val + 1) :
    step s = .next (State.advance { s with idx := j, st := .write, trace := s.trace ++ [.drain .ok] }) := by
  have hfetch := fetch_drain hst hrst
  rw [herr, hdone, if_neg (Fin.ne_of_val_ne hlt.ne)] at hfetch
  rw [step_of_fetch hfetch]
  exact congrArg advanceOutcome (exec_drainNext hlt hj)

theorem step_drain_last (hst : s.st = .drain) (hrst : s.now.rst = false) (herr : s.now.txErr = false)
    (hdone : s.now.txDrained = true) (hidx : s.idx = 16) :
    step s = .next (State.advance { s with idx := 0, st := .poll, trace := s.trace ++ [.drain .ok] }) := by
  rw [step_of_fetch (fetch_drain hst hrst), herr, hdone, if_pos hidx]
  rfl

theorem step_drain_wait (hst : s.st = .drain) (hrst : s.now.rst = false) (herr : s.now.txErr = false)
    (hdone : s.now.txDrained = false) : step s = .next s.advance := by
  rw [step_of_fetch (fetch_drain hst hrst), herr, hdone]
  rfl

end

/-- Settles O37: one rule of a step for each answer, `tx_err` first. -/
theorem writeTakesTheTransportsAnswer : Obligations.WriteTakesTheTransportsAnswer := by
  intro s
  refine ⟨rfl, rfl, rfl, fun hst => ⟨?_, ?_, fun hrst => ?_⟩⟩
  · simp [State.outputs, hst]
  · simp [State.outputs, hst]
  · split_ifs with herr hacc
    · exact step_write_fail hst hrst herr
    · exact step_write_ok hst hrst (Bool.eq_false_of_not_eq_true herr) hacc
    · exact step_write_wait hst hrst (Bool.eq_false_of_not_eq_true herr) (Bool.eq_false_of_not_eq_true hacc)

/-- Settles O38: one rule of a step for each answer, the answer `ok` parted at IDX 16. -/
theorem drainTakesTheTransportsAnswer : Obligations.DrainTakesTheTransportsAnswer := by
  intro s
  refine ⟨rfl, fun j => exec_drainNext, rfl, rfl, fun hst => ⟨?_, ?_, ?_, fun hrst => ⟨?_, ?_, ?_, ?_⟩⟩⟩
  · simp [State.outputs, hst]
  · simp [State.outputs, hst]
  · simp [State.outputs, hst]
  · exact step_drain_fail hst hrst
  · exact fun j => step_drain_next hst hrst
  · exact step_drain_last hst hrst
  · exact step_drain_wait hst hrst

/-! ### Waiting -/

/-- The state `k` steps on where the block holds still: the levels of `k` steps have passed (R8). -/
def State.elapsed (s : State) (k : Nat) : State := { s with inputs := s.inputs.drop k, tick := s.tick + k }

/-- The levels `k` steps on are those that a state which holds still samples then. -/
theorem State.elapsed_now (s : State) (k : Nat) : (s.elapsed k).now = s.levelsAt k := rfl

theorem State.elapsed_advance (s : State) (k : Nat) : (s.elapsed k).advance = s.elapsed (k + 1) := by
  simp [State.elapsed, State.advance, Nat.add_assoc]

/-- Where every one of `k` steps lets the levels pass and does nothing else, so does the run. -/
theorem runSteps_elapsed {s : State} (k : Nat) (hold : ∀ j < k, step (s.elapsed j) = .next (s.elapsed j).advance) :
    runSteps k s = .next (s.elapsed k) := by
  induction k with
  | zero => rfl
  | succ k ih =>
    have hrun : runSteps k s = .next (s.elapsed k) := ih fun j hj => hold j (by omega)
    rw [runSteps_add k 1 hrun, runSteps_succ 0 (hold k (by omega)), State.elapsed_advance]
    rfl

/-- Without an answer a step of WRITE or DRAIN waits (R51, R114). -/
theorem step_wait {s : State} (hst : s.st = .write ∨ s.st = .drain) (hrst : NoReset s.now)
    (hans : AnswersNothing s.now) : step s = .next s.advance := by
  obtain ⟨herr, hacc, hdone⟩ := hans
  cases hst with
  | inl hwrite => exact step_write_wait hwrite hrst herr hacc
  | inr hdrain => exact step_drain_wait hdrain hrst herr hdone

/-- Settles O42: each of the steps waits, and ST stays WRITE or DRAIN. -/
theorem waitsChangeNothing : Obligations.WaitsChangeNothing := by
  intro k s hst hlevels
  refine runSteps_elapsed k fun j hj => ?_
  have hnow := hlevels j hj
  rw [← State.elapsed_now] at hnow
  obtain ⟨hrst, hans⟩ := hnow
  exact step_wait hst hrst hans

/-! ### A frame sent whole -/

/-- The writes and drains that send a list of bytes, in order (R109). -/
def sentEvents (bs : List Byte) : List Event := bs.flatMap (fun b => [.write b .ok, .drain .ok])

theorem frameEvents_eq_sentEvents (f : Frame) : frameEvents f = sentEvents f.toList := rfl

/-- What is left to send at an offset is its byte and what is left at the next. -/
theorem frame_drop (f : Frame) (i : FrameOffset) : f.toList.drop i.val = f[i] :: f.toList.drop (i.val + 1) := by
  rw [List.drop_eq_getElem_cons (by simp)]
  simp

/-- Nobody resets in the next `k` steps, and the transport answers every request at once. -/
abbrev AnsweredFor (k : Nat) (s : State) : Prop := ∀ j < k, NoReset (s.levelsAt j) ∧ AnswersOk (s.levelsAt j)

/-- A state that stands `k` steps on has the levels of `k` steps on, now and at every later step. -/
theorem State.levelsAt_add {s t : State} {k : Nat} (hin : t.inputs = s.inputs.drop k) (htick : t.tick = s.tick + k)
    (j : Nat) : t.levelsAt j = s.levelsAt (k + j) := by
  simp [State.levelsAt, State.now, hin, htick, Nat.add_assoc]

section

variable {s : State}

/-- The state in which a WRITE that is answered `ok` leaves the block (R101). -/
def State.written (s : State) : State :=
  State.advance { s with st := .drain, trace := s.trace ++ [.write s.f[s.idx] .ok] }

/-- Of two steps with answers the first does the write, and the second samples an answer again. -/
theorem runSteps_written (hst : s.st = .write) (hans : AnsweredFor 2 s) :
    runSteps 2 s = runSteps 1 s.written ∧ NoReset s.written.now ∧ AnswersOk s.written.now := by
  obtain ⟨hrst, herr, hacc, -⟩ := hans 0 (by decide)
  have hnow : s.written.now = s.levelsAt 1 := now_eq_levelsAt (by simp [State.written]) rfl
  rw [hnow]
  exact ⟨runSteps_succ 1 (step_write_ok hst hrst herr hacc), hans 1 (by decide)⟩

/-- The state two steps on, in which a byte that is not the last has been sent and offset `j` comes next (R106). -/
def State.byteSent (s : State) (j : FrameOffset) : State :=
  { s with idx := j, trace := s.trace ++ sentEvents [s.f[s.idx]], inputs := s.inputs.drop 2, tick := s.tick + 2 }

/-- Below IDX 16 two steps send a byte and go on to the next offset (R106). -/
theorem runSteps_send_next {j : FrameOffset} (hst : s.st = .write) (hans : AnsweredFor 2 s) (hlt : s.idx.val < 16)
    (hj : j.val = s.idx.val + 1) :
    runSteps 2 s = .next (s.byteSent j) := by
  obtain ⟨hrun, hrst, herr, -, hdone⟩ := runSteps_written hst hans
  rw [hrun, runSteps_succ 0 (step_drain_next rfl hrst herr hdone hlt hj)]
  simp [State.written, State.byteSent, State.advance, hst, sentEvents, ← List.drop_one]

/-- At IDX 16 two steps send the last byte and return to POLL (R107). -/
theorem runSteps_send_last (hst : s.st = .write) (hans : AnsweredFor 2 s) (hidx : s.idx = 16) :
    runSteps 2 s = .next { s with
      st := .poll, idx := 0, trace := s.trace ++ sentEvents [s.f[s.idx]], inputs := s.inputs.drop 2,
      tick := s.tick + 2 } := by
  obtain ⟨hrun, hrst, herr, -, hdone⟩ := runSteps_written hst hans
  rw [hrun, runSteps_succ 0 (step_drain_last rfl hrst herr hdone hidx)]
  simp [State.written, State.advance, sentEvents, ← List.drop_one]

/-- From WRITE, with `k` offsets to come after this one, answers at once send the rest of the frame and return to POLL,
two steps an offset (R106, R107, R109). -/
theorem runSteps_send {k : Nat} (hst : s.st = .write) (hk : s.idx.val + k = 16) (hans : AnsweredFor (2 + 2 * k) s) :
    runSteps (2 + 2 * k) s = .next { s with
      st := .poll, idx := 0, trace := s.trace ++ sentEvents (s.f.toList.drop s.idx.val),
      inputs := s.inputs.drop (2 + 2 * k), tick := s.tick + (2 + 2 * k) } := by
  induction k generalizing s with
  | zero =>
    have hidx : s.idx = 16 := Fin.ext hk
    have hrest : s.f.toList.drop s.idx.val = [s.f[s.idx]] := by
      rw [frame_drop, List.drop_eq_nil_of_le (by simp [hidx])]
    rw [hrest]
    exact runSteps_send_last hst hans hidx
  | succ k ih =>
    have hlt : s.idx.val < 16 := by omega
    have hnext : runSteps 2 s = .next (s.byteSent (nextOffset s.idx hlt)) :=
      runSteps_send_next hst (fun i hi => hans i (by omega)) hlt rfl
    have hoffset : (nextOffset s.idx hlt).val + k = 16 := by rw [nextOffset_val]; omega
    have hrest := ih (s := s.byteSent (nextOffset s.idx hlt)) hst hoffset fun i hi => by
      rw [State.levelsAt_add rfl rfl]
      exact hans (2 + i) (by omega)
    rw [Nat.mul_succ, Nat.add_comm (2 * k) 2, runSteps_add 2 (2 + 2 * k) hnext, hrest, frame_drop s.f s.idx]
    simp [State.byteSent, sentEvents, Nat.add_assoc]

end

/-- Settles O43: the frame is sent from offset 0 with sixteen offsets to come. -/
theorem transmitterSendsTheFrame : Obligations.TransmitterSendsTheFrame := by
  intro s hst hidx hans
  have hrun := runSteps_send (k := 16) hst (by simp [hidx]) hans
  rw [hidx] at hrun
  rw [frameEvents_eq_sentEvents]
  exact hrun

end Sys2Proof.Machine
end

section
/-!
PROOFS. The driver loop: IDLE (O12, O13), POLL (O14), DONE (O15), and the run that finds no input (O16).
-/

namespace Sys2Proof.Machine

/-! ### One step of IDLE, POLL and DONE, by what the state samples (R121, R122, R124, R127) -/

/-- What START leaves: the sampled mode latched, and the run in POLL (R121). -/
def State.started (s : State) : State := { s with mode := modeOfBit s.now.mode, st := .poll }

section

variable {s : State}

theorem step_start (hst : s.st = .idle) (hrst : s.now.rst = false) (hstart : s.now.start = true) :
    step s = .next s.started.advance := by
  rw [step_of_fetch (fetch_idle hst hrst), hstart]
  rfl

theorem step_idle_wait (hst : s.st = .idle) (hrst : s.now.rst = false) (hstart : s.now.start = false) :
    step s = .next s.advance := by
  rw [step_of_fetch (fetch_idle hst hrst), hstart]
  rfl

theorem step_poll_more (hst : s.st = .poll) (hrst : s.now.rst = false) (hnext : s.now.srcHasNext = true) :
    step s = .next (State.advance { s with st := .load }) := by
  rw [step_of_fetch (fetch_poll hst hrst), hnext]
  rfl

theorem step_poll_end (hst : s.st = .poll) (hrst : s.now.rst = false) (hnext : s.now.srcHasNext = false) :
    step s = .next (State.advance { s with st := .done, trace := s.trace ++ [.exhausted] }) := by
  rw [step_of_fetch (fetch_poll hst hrst), hnext]
  rfl

theorem step_done_hold (hst : s.st = .done) (hrst : s.now.rst = false) : step s = .next s.advance := by
  rw [step_of_fetch (fetch_done hst hrst)]
  rfl

/-- Only WRITE, DRAIN and LOAD raise a request to the transport or the source (R22). -/
theorem outputs_request_nothing (hst : s.st = .idle ∨ s.st = .poll ∨ s.st = .done) :
    s.outputs.txWrite = false ∧ s.outputs.txDrain = false ∧ s.outputs.srcNext = false := by
  rcases hst with h | h | h <;> simp [State.outputs, h]

end

/-- Settles O12: a reset is sampled before START is (R148). -/
theorem startLatchesModeAndPolls : Obligations.StartLatchesModeAndPolls :=
  fun _ => ⟨rfl, fun hst hstart => ⟨fun hrst => step_start hst hrst hstart, fetch_rst⟩⟩

/-- Settles O13: the registers that STATUS shows are 0 in IDLE as reset leaves it. -/
theorem idleWaitsForStart : Obligations.IdleWaitsForStart := by
  refine fun s => ⟨rfl, step_idle_wait, fun hst hidx hunder heop => ?_⟩
  obtain ⟨hwrite, hdrain, hnext⟩ := outputs_request_nothing (.inl hst)
  refine ⟨?_, hnext, hwrite, ?_, hdrain⟩
  · simp only [Outputs.status, State.outputs, hst, hidx, hunder, heop]
    rfl
  · simp [State.outputs, hst]

/-- Settles O14: POLL samples `src_has_next` alone and has an operation for each of its values. -/
theorem pollAsksTheSourceOnce : Obligations.PollAsksTheSourceOnce :=
  fun _ => ⟨rfl, rfl, fun hst hrst => ⟨step_poll_more hst hrst, step_poll_end hst hrst⟩⟩

/-- Settles O15: DONE samples `rst` alone, and of the outputs that follow ST shows `done`. -/
theorem doneIsTerminal : Obligations.DoneIsTerminal := by
  refine fun s => ⟨rfl, fun hst => ⟨step_done_hold hst, ?_⟩⟩
  simp [State.outputs, busyIn, hst]

/-- Settles O16: START, then POLL.END; neither writes a register but MODE and ST, and the run passes IDLE, POLL and DONE
alone. -/
theorem emptyRun : Obligations.EmptyRun := by
  intro s hst hidx hrst0 hrst1 hstart hnext
  have hnow : s.started.advance.now = s.levelsAt 1 := now_eq_levelsAt (by simp [State.started]) rfl
  rw [← hnow] at hrst1 hnext
  refine ⟨_, _, step_start hst hrst0 hstart, step_poll_end rfl hrst1 hnext, rfl, hidx, rfl, rfl, rfl, rfl, rfl, ?_⟩
  intro u hu
  simp only [List.mem_cons, List.not_mem_nil, or_false] at hu
  obtain rfl | rfl | rfl := hu
  · exact outputs_request_nothing (.inl hst)
  · exact outputs_request_nothing (.inr (.inl rfl))
  · exact outputs_request_nothing (.inr (.inr rfl))

end Sys2Proof.Machine
end

section
/-!
PROOFS. The closed loop of the block and the scripted agents: a run without a fault sends every frame (O57).
-/

namespace Sys2Proof.Machine

/-! ### One step of LOAD and of SUM -/

section

variable {s : State}

theorem step_load (hst : s.st = .load) (hrst : s.now.rst = false) : step s = .next s.loaded.advance := by
  rw [step_of_fetch (fetch_load hst hrst), exec_load]
  rfl

/-- What SUM leaves below the last window offset, with offset `j` next (R85). -/
def State.summed (s : State) (j : FrameOffset) : State :=
  { s with acc := s.acc + s.f[s.idx].setWidth 12, idx := j }

theorem step_sum_next {j : FrameOffset} (hst : s.st = .sum) (hrst : s.now.rst = false) (h4 : 4 ≤ s.idx.val)
    (h15 : s.idx.val < 15) (hj : j.val = s.idx.val + 1) :
    step s = .next (s.summed j).advance := by
  rw [step_of_fetch (fetch_sum hst hrst), exec_sum_next h4 h15 hj]
  rfl

theorem step_sum_last (hst : s.st = .sum) (hrst : s.now.rst = false) (hidx : s.idx = 15) :
    step s = .next (State.advance { s with acc := s.acc + s.f[s.idx].setWidth 12, st := .csum }) := by
  rw [step_of_fetch (fetch_sum hst hrst), exec_sum_last hidx]
  rfl

end

/-! ### The bench of a script of records (R62, log 13) -/

/-- The line that presents one record. -/
def recordLine (r : Vector Byte 16 × Bool) : Line := if r.2 then .short r.1 else .record r.1

/-- The bench while the run goes on: no host line is left, the records `rs` are still to come, `k` have been taken, and
the outstanding request has waited `w` of its `n` steps. -/
def Bench.running (n : Nat) (rs : List (Vector Byte 16 × Bool)) (k w : Nat) : Bench where
  pulses := []
  records := rs
  closed := true
  waits := n
  failAt := none
  taken := k
  waited := w

/-- A record line has no shorthand in it, and gives an open source its record. -/
theorem foldl_addLine_recordLine {b : Bench} (hopen : b.closed = false) (r : Vector Byte 16 × Bool) :
    (expandLine (recordLine r)).foldl Bench.addLine b = { b with records := b.records ++ [r] } := by
  obtain ⟨bytes, short⟩ := r
  cases short <;> simp [recordLine, expandLine, Bench.addLine, Bench.addRecord, hopen]

/-- An open source gets the records of the record lines, in order. -/
theorem foldl_addLine_recordLines {b : Bench} (hopen : b.closed = false) (rs : List (Vector Byte 16 × Bool)) :
    ((rs.map recordLine).flatMap expandLine).foldl Bench.addLine b = { b with records := b.records ++ rs } := by
  induction rs generalizing b with
  | nil => simp
  | cons r rs ih =>
    rw [List.map_cons, List.flatMap_cons, List.foldl_append, foldl_addLine_recordLine hopen]
    simpa using ih (b := { b with records := b.records ++ [r] }) hopen

/-- The script sets up the running bench and one line of the host, START. -/
theorem benchOf_recordScript (m : Mode) (rs : List (Vector Byte 16 × Bool)) (n : Nat) :
    benchOf (recordScript m rs n) = { Bench.running n rs 0 0 with pulses := [some m] } := by
  have hlines : recordScript m rs n = [.start m] ++ (rs.map recordLine ++ [.stop, .txWait n]) := rfl
  have hopen : (Bench.addLine .empty (.start m)).closed = false := rfl
  calc benchOf (recordScript m rs n)
    _ = [Line.stop, .txWait n].foldl Bench.addLine
          (((rs.map recordLine).flatMap expandLine).foldl Bench.addLine (Bench.addLine .empty (.start m))) := by
        simp [benchOf, hlines, List.flatMap_def, expandLine]
    _ = { Bench.running n rs 0 0 with pulses := [some m] } := by
        rw [foldl_addLine_recordLines hopen]
        rfl

/-! ### The closed loop as a relation -/

/-- One step of the closed loop: the agents drive the ports from the outputs, the block steps, the agents go on. -/
def LoopStep (c d : Bench × State) : Prop :=
  step { c.2 with inputs := [c.1.drive c.2.outputs] } = .next d.2 ∧ d.1 = c.1.after c.2.outputs

/-- A chain of closed-loop steps is a run of the bench. -/
theorem exists_runBench_of_loopSteps {c d : Bench × State} (h : Relation.ReflTransGen LoopStep c d) :
    ∃ k, runBench k c.1 c.2 = .next d.2 := by
  induction h using Relation.ReflTransGen.head_induction_on with
  | refl => exact ⟨0, rfl⟩
  | head hstep _ ih =>
    obtain ⟨hnext, hbench⟩ := hstep
    obtain ⟨k, hk⟩ := ih
    rw [hbench] at hk
    exact ⟨k + 1, by simp only [runBench, hnext, hk]⟩

/-- The closed loop leads from the block `s` under the bench `b` to the block `t` under the bench `c`. The levels given
and the counter of the free levels are left open on both sides: the agents drive every level at every step. -/
def Leads (b : Bench) (s : State) (c : Bench) (t : State) : Prop :=
  ∀ (xs : List Inputs) (i : Nat), ∃ (ys : List Inputs) (j : Nat),
    Relation.ReflTransGen LoopStep (b, { s with inputs := xs, tick := i }) (c, { t with inputs := ys, tick := j })

section

variable {a b c : Bench} {r s t : State}

theorem Leads.refl (b : Bench) (s : State) : Leads b s b s := fun xs i => ⟨xs, i, .refl⟩

theorem Leads.trans (h : Leads a r b s) (h' : Leads b s c t) : Leads a r c t := fun xs i =>
  let ⟨ys, j, hrs⟩ := h xs i
  let ⟨zs, k, hst⟩ := h' ys j
  ⟨zs, k, hrs.trans hst⟩

/-- One step of the block under the levels the agents drive. -/
theorem Leads.single
    (h : ∀ i, step { s with inputs := [b.drive s.outputs], tick := i } = .next { t with inputs := [], tick := i + 1 })
    (hc : b.after s.outputs = c) : Leads b s c t := fun _ i =>
  ⟨[], i + 1, .single ⟨h i, hc.symm⟩⟩

theorem exists_runBench_of_leads (h : Leads b s c t) :
    ∃ k ys j, runBench k b s = .next { t with inputs := ys, tick := j } := by
  obtain ⟨ys, j, hsteps⟩ := h s.inputs s.tick
  obtain ⟨k, hk⟩ := exists_runBench_of_loopSteps hsteps
  exact ⟨k, ys, j, hk⟩

end

/-! ### What the agents do while the run goes on -/

section

variable {n k w : Nat} {rs : List (Vector Byte 16 × Bool)} {s t : State}

theorem failsNow_running (o : Outputs) : (Bench.running n rs k w).failsNow o = false := rfl

theorem due_running : (Bench.running n rs k w).due = decide (n ≤ w) := rfl

/-- Before its steps are over the transport does not answer. -/
theorem drive_running_waits (o : Outputs) (hw : w < n) : AnswersNothing ((Bench.running n rs k w).drive o) := by
  simp [AnswersNothing, Bench.drive, failsNow_running, due_running, hw]

/-- When its steps are over the transport accepts the byte of WRITE. -/
theorem drive_running_write (hst : s.st = .write) :
    ((Bench.running n rs k n).drive s.outputs).txErr = false ∧
    ((Bench.running n rs k n).drive s.outputs).txAccept = true := by
  simp [Bench.drive, failsNow_running, due_running, State.outputs, hst]

/-- When its steps are over the transport has drained in DRAIN. -/
theorem drive_running_drain (hst : s.st = .drain) :
    ((Bench.running n rs k n).drive s.outputs).txErr = false ∧
    ((Bench.running n rs k n).drive s.outputs).txDrained = true := by
  simp [Bench.drive, failsNow_running, due_running, State.outputs, hst]

/-- The agents stand still where no request is raised. -/
theorem after_running_idle (hst : s.st ≠ .load ∧ s.st ≠ .write ∧ s.st ≠ .drain) :
    (Bench.running n rs k 0).after s.outputs = .running n rs k 0 := by
  simp [Bench.after, Bench.running, State.outputs, hst]

/-- The source gives up the record that LOAD takes (R123). -/
theorem after_running_load (r : Vector Byte 16 × Bool) (hst : s.st = .load) :
    (Bench.running n (r :: rs) k 0).after s.outputs = .running n rs (k + 1) 0 := by
  simp [Bench.after, Bench.running, State.outputs, hst]

/-- A request that is not answered yet has waited one step more. -/
theorem after_running_waits (hst : s.st = .write ∨ s.st = .drain) (hw : w < n) :
    (Bench.running n rs k w).after s.outputs = .running n rs k (w + 1) := by
  have hdue : (Bench.running n rs k w).due = false := decide_eq_false hw.not_ge
  rcases hst with h | h <;> simp [Bench.after, hdue, State.outputs, h] <;> rfl

/-- The answer ends the call (R177). -/
theorem after_running_answers (hst : s.st = .write ∨ s.st = .drain) :
    (Bench.running n rs k n).after s.outputs = .running n rs k 0 := by
  have hdue : (Bench.running n rs k n).due = true := decide_eq_true le_rfl
  rcases hst with h | h <;> simp [Bench.after, hdue, State.outputs, h] <;> rfl

/-- A step in which no request is raised leaves the agents as they are. -/
theorem leads_idle (hst : s.st ≠ .load ∧ s.st ≠ .write ∧ s.st ≠ .drain)
    (h : ∀ i, step { s with inputs := [(Bench.running n rs k 0).drive s.outputs], tick := i } =
      .next { t with inputs := [], tick := i + 1 }) :
    Leads (.running n rs k 0) s (.running n rs k 0) t :=
  .single h (after_running_idle hst)

/-- The block holds still until the transport's answer is due (R8, R62). -/
theorem leads_wait (hst : s.st = .write ∨ s.st = .drain) (hw : w ≤ n) :
    Leads (.running n rs k 0) s (.running n rs k w) s := by
  induction w with
  | zero => exact .refl _ _
  | succ w ih =>
    have hwait : Leads (.running n rs k w) s (.running n rs k (w + 1)) s :=
      .single (fun _ => step_wait hst rfl (drive_running_waits s.outputs hw)) (after_running_waits hst hw)
    exact (ih (by omega)).trans hwait

/-- A call is answered after its waits, and the agents stand as before it. -/
theorem leads_answered (hst : s.st = .write ∨ s.st = .drain)
    (h : ∀ i, step { s with inputs := [(Bench.running n rs k n).drive s.outputs], tick := i } =
      .next { t with inputs := [], tick := i + 1 }) :
    Leads (.running n rs k 0) s (.running n rs k 0) t :=
  (leads_wait hst le_rfl).trans (.single h (after_running_answers hst))

/-! ### From POLL to WRITE -/

/-- POLL finds a record and LOAD takes it (R122, R123). -/
theorem leads_load (r : Vector Byte 16 × Bool) (hst : s.st = .poll) :
    Leads (.running n (r :: rs) k 0) s (.running n rs (k + 1) 0) { s with
      st := .sum, idx := 4, acc := 0, f := fillFrame s.mode (packRecord r.1) s.f, underrun := s.underrun || r.2,
      trace := s.trace ++ [.next (packRecord r.1)] } := by
  have hpoll : Leads (.running n (r :: rs) k 0) s (.running n (r :: rs) k 0) { s with st := .load } :=
    leads_idle (by simp [hst]) fun _ => step_poll_more hst rfl rfl
  exact hpoll.trans (.single (fun _ => step_load rfl rfl) (after_running_load r rfl))

/-- SUM runs over the window to CSUM and leaves its exact sum (R85, R88). -/
theorem leads_sum (j : Nat) (hst : s.st = .sum) (h4 : 4 ≤ s.idx.val) (hj : s.idx.val + j = 15)
    (hacc : s.acc.toNat = windowSumBelow s.f s.idx.val) :
    ∃ a : BitVec 12, a.toNat = windowSumBelow s.f 16 ∧
      Leads (.running n rs k 0) s (.running n rs k 0) { s with st := .csum, idx := 15, acc := a } := by
  induction j generalizing s with
  | zero =>
    have hidx : s.idx = 15 := Fin.ext hj
    have hexact := acc_add_exact s.acc s.f s.idx h4 (by omega) hacc
    refine ⟨s.acc + s.f[s.idx].setWidth 12, by rw [hexact, hidx]; rfl, ?_⟩
    rw [← hidx]
    exact leads_idle (by simp [hst]) fun _ => step_sum_last hst rfl hidx
  | succ j ih =>
    have hlt : s.idx.val < 15 := by omega
    have hnext : Leads (.running n rs k 0) s (.running n rs k 0) (s.summed (nextOffset s.idx (by omega))) :=
      leads_idle (by simp [hst]) fun _ => step_sum_next hst rfl h4 hlt rfl
    obtain ⟨a, ha, hrest⟩ := ih (s := s.summed (nextOffset s.idx (by omega))) hst (Nat.le_succ_of_le h4)
      ((Nat.succ_add_eq_add_succ _ _).trans hj) (acc_add_exact s.acc s.f s.idx h4 (by omega) hacc)
    exact ⟨a, ha, hnext.trans hrest⟩

/-- From the first SUM on a filled frame to WRITE at offset 0 the frame is encoded (R65, R86). -/
theorem leads_encode {m : Mode} {v : Record} {g : Frame} (hst : s.st = .sum) (hidx : s.idx = 4) (hacc : s.acc = 0)
    (hf : s.f = fillFrame m v g) :
    ∃ a : BitVec 12, Leads (.running n rs k 0) s (.running n rs k 0)
      { s with st := .write, idx := 0, acc := a, f := encodeFrame m v } := by
  obtain ⟨a, ha, hsum⟩ := leads_sum (n := n) (rs := rs) (k := k) 11 hst (by simp [hidx]) (by simp [hidx])
    (by simp [hacc, hidx, windowSumBelow_four])
  rw [← set_cs_of_fill hf]
  exact ⟨a, hsum.trans (leads_idle (by simp) fun _ => step_csum rfl rfl ha)⟩

/-! ### A frame sent whole, with its waits -/

/-- WRITE is left with the byte written (R101). -/
theorem leads_write (hst : s.st = .write) :
    Leads (.running n rs k 0) s (.running n rs k 0)
      { s with st := .drain, trace := s.trace ++ [.write s.f[s.idx] .ok] } := by
  obtain ⟨herr, hacc⟩ := drive_running_write (n := n) (rs := rs) (k := k) hst
  exact leads_answered (.inl hst) fun _ => step_write_ok hst rfl herr hacc

/-- DRAIN below offset 16 is left for the next offset (R106). -/
theorem leads_drain_next {j : FrameOffset} (hst : s.st = .drain) (hlt : s.idx.val < 16) (hj : j.val = s.idx.val + 1) :
    Leads (.running n rs k 0) s (.running n rs k 0)
      { s with st := .write, idx := j, trace := s.trace ++ [.drain .ok] } := by
  obtain ⟨herr, hdone⟩ := drive_running_drain (n := n) (rs := rs) (k := k) hst
  exact leads_answered (.inr hst) fun _ => step_drain_next hst rfl herr hdone hlt hj

/-- DRAIN at offset 16 is left for POLL (R107). -/
theorem leads_drain_last (hst : s.st = .drain) (hidx : s.idx = 16) :
    Leads (.running n rs k 0) s (.running n rs k 0)
      { s with st := .poll, idx := 0, trace := s.trace ++ [.drain .ok] } := by
  obtain ⟨herr, hdone⟩ := drive_running_drain (n := n) (rs := rs) (k := k) hst
  exact leads_answered (.inr hst) fun _ => step_drain_last hst rfl herr hdone hidx

/-- From WRITE with `j` offsets to come after this one the rest of the frame is sent (R106, R107, R109). -/
theorem leads_send (j : Nat) (hst : s.st = .write) (hj : s.idx.val + j = 16) :
    Leads (.running n rs k 0) s (.running n rs k 0)
      { s with st := .poll, idx := 0, trace := s.trace ++ sentEvents (s.f.toList.drop s.idx.val) } := by
  induction j generalizing s with
  | zero =>
    have hlast := (leads_write (n := n) (rs := rs) (k := k) hst).trans (leads_drain_last rfl (Fin.ext hj))
    have hrest : s.f.toList.drop (s.idx.val + 1) = [] := List.drop_eq_nil_of_le (by simp; omega)
    simpa [frame_drop, hrest, sentEvents] using hlast
  | succ j ih =>
    have hlt : s.idx.val < 16 := by omega
    have hnext := (leads_write (n := n) (rs := rs) (k := k) hst).trans
      (leads_drain_next (j := nextOffset s.idx hlt) rfl hlt rfl)
    have hrest := hnext.trans (ih rfl (by rw [nextOffset_val]; omega))
    rw [frame_drop]
    simpa [sentEvents] using hrest

/-! ### From IDLE to DONE -/

/-- START latches the mode that the script's host shows (R121). -/
theorem leads_start (m : Mode) (hst : s.st = .idle) :
    Leads { Bench.running n rs k 0 with pulses := [some m] } s (.running n rs k 0)
      { s with st := .poll, mode := m } := by
  have hafter : Bench.after { Bench.running n rs k 0 with pulses := [some m] } s.outputs = .running n rs k 0 := by
    simp [Bench.after, Bench.running, State.outputs, hst]
  cases m <;> exact .single (fun _ => step_start hst rfl rfl) hafter

/-- The state once a record has been taken and its frame sent (R65, R109, R144). -/
def State.sent (s : State) (r : Vector Byte 16 × Bool) (a : BitVec 12) : State :=
  { s with
    idx := 0, acc := a, f := encodeFrame s.mode (packRecord r.1), underrun := s.underrun || r.2,
    trace := s.trace ++ .next (packRecord r.1) :: frameEvents (encodeFrame s.mode (packRecord r.1)) }

/-- From POLL to POLL a record is taken and its frame sent. -/
theorem leads_frame (r : Vector Byte 16 × Bool) (hst : s.st = .poll) :
    ∃ a : BitVec 12, Leads (.running n (r :: rs) k 0) s (.running n rs (k + 1) 0) (s.sent r a) := by
  have hload := leads_load (n := n) (rs := rs) (k := k) r hst
  obtain ⟨a, hencode⟩ := Exists.imp (fun _ => hload.trans) (leads_encode rfl rfl rfl rfl)
  have hsend := hencode.trans (leads_send 16 rfl rfl)
  exact ⟨a, by simpa [State.sent, hst, frameEvents_eq_sentEvents] using hsend⟩

/-- From POLL every record still to come is taken and its frame sent, and the run ends in DONE (R130, R141). -/
theorem leads_frames (hst : s.st = .poll) (hidx : s.idx = 0) :
    ∃ (c : Bench) (f : Frame) (a : BitVec 12), Leads (.running n rs k 0) s c { s with
      st := .done, idx := 0, acc := a, f := f, underrun := s.underrun || rs.any (fun r => r.2),
      trace := s.trace ++ runEvents s.mode (rs.map (fun r => packRecord r.1)) } := by
  induction rs generalizing s k with
  | nil =>
    refine ⟨.running n [] k 0, s.f, s.acc, ?_⟩
    rw [List.any_nil, Bool.or_false, ← hidx]
    exact leads_idle (by simp [hst]) fun _ => step_poll_end hst rfl rfl
  | cons r rs ih =>
    obtain ⟨a, hframe⟩ := leads_frame (n := n) (rs := rs) (k := k) r hst
    obtain ⟨c, f, a', hrest⟩ := ih (k := k + 1) (s := s.sent r a) hst rfl
    refine ⟨c, f, a', ?_⟩
    simpa [State.sent, runEvents, Bool.or_assoc] using hframe.trans hrest

end

/-- Settles O57: START, then every record's frame, then POLL finds no record. -/
theorem scriptedRunSendsEveryFrame : Obligations.ScriptedRunSendsEveryFrame := by
  intro s m rs n hst hidx
  obtain ⟨c, f, a, hframes⟩ :=
    leads_frames (n := n) (k := 0) (rs := rs) (s := { s with st := .poll, mode := m }) rfl hidx
  obtain ⟨k, ys, j, hrun⟩ := exists_runBench_of_leads ((leads_start m hst).trans hframes)
  rw [benchOf_recordScript]
  exact ⟨k, _, hrun, rfl, rfl, rfl, rfl, rfl, rfl⟩

end Sys2Proof.Machine
end

section
/-!
PROOFS. Faults and ABORT: the priority of `tx_err` (O39), the terminal state (O40), and its record kept over any number of
steps (O41).
-/

namespace Sys2Proof.Machine

theorem step_abort_hold {s : State} (hst : s.st = .abort) (hrst : s.now.rst = false) : step s = .next s.advance := by
  rw [step_of_fetch (fetch_abort hst hrst)]
  rfl

/-- Settles O41: each of the steps holds ABORT, whatever the transport signals, so a second fault is never taken. -/
theorem abortKeepsTheFaultRecord : Obligations.AbortKeepsTheFaultRecord :=
  fun k _ hst hrst => runSteps_elapsed k fun j hj => step_abort_hold hst (hrst j hj)

/-- Settles O39: the decision lists of WRITE and of DRAIN ask `tx_err` before the acknowledgement. -/
theorem faultBeatsAcknowledgement : Obligations.FaultBeatsAcknowledgement := by
  refine fun s hrst herr => ⟨fun hst => ?_, fun hst => ?_⟩
  · rw [fetch_write hst hrst, if_pos herr]
  · rw [fetch_drain hst hrst, if_pos herr]

/-- Settles O40: ABORT samples `rst` alone, and of the outputs that follow ST shows `err`. -/
theorem abortIsTerminal : Obligations.AbortIsTerminal := by
  refine fun s => ⟨rfl, fun hst => ⟨step_abort_hold hst, ?_⟩⟩
  simp [State.outputs, busyIn, Phase.code, hst]

end Sys2Proof.Machine
end

section
/-!
PROOFS. The reset: its writes (O9), its values (O10), the outputs after it (O11), and the invariants it establishes (O53,
O55).
-/

namespace Sys2Proof.Machine

/-- A step that samples a reset does nothing else, whatever ST is (R148, R165). -/
theorem step_reset {s : State} (hrst : s.now.rst = true) : step s = .next s.resetRegisters.advance := by
  rw [step_of_fetch (fetch_rst hrst)]
  rfl

/-- Settles O9: RESET writes constants, so a second one finds nothing to change. -/
theorem resetWritesEverythingButTheFrame : Obligations.ResetWritesEverythingButTheFrame := by
  refine fun s => ⟨rfl, step_reset, fun t ht => ?_⟩
  cases ht
  exact ⟨rfl, rfl, rfl⟩

/-- Settles O10. -/
theorem stateAfterReset : Obligations.StateAfterReset := ⟨rfl, rfl, rfl, rfl, rfl, rfl⟩

/-- Every output is low where the registers hold their reset values: in IDLE no port shows `F` (R22, R168). -/
theorem outputs_resetRegisters (s : State) :
    s.resetRegisters.outputs =
      { srcNext := false, txWrite := false, txData := 0x00, txDrain := false, busy := false, done := false,
        err := false, underrun := false, eop := false, st := 0, idx := 0 } := rfl

/-- Settles O11: `State.reset` holds the reset values too, and STATUS is made of the outputs. -/
theorem outputsAfterReset : Obligations.OutputsAfterReset := by
  intro s t ht
  obtain ⟨u, rfl⟩ : ∃ u : State, t = u.resetRegisters := by
    rcases ht with hexec | rfl
    · cases hexec
      exact ⟨s, rfl⟩
    · exact ⟨State.reset, rfl⟩
  rw [outputs_resetRegisters]
  exact ⟨rfl, rfl⟩

/-- Settles O53: in IDLE only IDX 0 and EOP 0 are asked for; the other invariants speak of later states. -/
theorem invariantHoldsAtReset : Obligations.InvariantHoldsAtReset :=
  ⟨⟨fun _ => rfl, nofun, nofun⟩, nofun, ⟨nofun, nofun, by simp [State.reset]⟩, by simp [State.reset]⟩

/-- Settles O55: in IDLE the trace has to be empty. -/
theorem eventOrderHoldsAtReset : Obligations.EventOrderHoldsAtReset := (runInv_idle rfl).mpr rfl

end Sys2Proof.Machine
end

section
/-!
PROOFS. What `F` holds before a LOAD is seen nowhere (O56): a run and the run of the same state with another frame `g` in
place of `F`, step by step.
-/

namespace Sys2Proof.Machine

/-- The state with `g` in place of what `F` holds. -/
def State.withF (s : State) (g : Frame) : State := { s with f := g }

/-- The steps to come cannot tell `g` from what `F` holds: in SUM and CSUM the two differ at offset 16 at most, which SUM
does not read and CSUM writes; in WRITE and DRAIN they are one frame; in the other states a LOAD comes before `F` is read,
or nothing does (R66, R67, R85, R86). In SUM the offset is in the window, so that no step stops (R59). -/
def FrameUnseen (s : State) (g : Frame) : Prop :=
  match s.st with
  | .sum => (4 ≤ s.idx.val ∧ s.idx.val ≤ 15) ∧ ∀ i : FrameOffset, i ≠ 16 → g[i] = s.f[i]
  | .csum => ∀ i : FrameOffset, i ≠ 16 → g[i] = s.f[i]
  | .write | .drain => g = s.f
  | .idle | .poll | .load | .done | .abort => True

section

variable {s : State} {g : Frame}

/-! ### What FrameUnseen says, state by state -/

theorem frameUnseen_sum (hst : s.st = .sum) : FrameUnseen s g ↔
    (4 ≤ s.idx.val ∧ s.idx.val ≤ 15) ∧ ∀ i : FrameOffset, i ≠ 16 → g[i] = s.f[i] := by
  rw [FrameUnseen, hst]

theorem frameUnseen_csum (hst : s.st = .csum) : FrameUnseen s g ↔ ∀ i : FrameOffset, i ≠ 16 → g[i] = s.f[i] := by
  rw [FrameUnseen, hst]

theorem frameUnseen_sending (hst : s.st = .write ∨ s.st = .drain) : FrameUnseen s g ↔ g = s.f := by
  rcases hst with h | h <;> rw [FrameUnseen, h]

theorem frameUnseen_beforeLoad (hst : s.st = .idle ∨ s.st = .poll ∨ s.st = .load) : FrameUnseen s g := by
  rcases hst with h | h | h <;> simp only [FrameUnseen, h]

/-- Where IDX is in its range, the frame that `F` holds is unseen in its own place. -/
theorem frameUnseen_self (hinv : IndexInv s) : FrameUnseen s s.f := by
  obtain ⟨-, hsum, -⟩ := hinv
  cases hst : s.st with
  | sum => exact (frameUnseen_sum hst).mpr ⟨hsum hst, fun _ _ => rfl⟩
  | _ => simp [FrameUnseen, hst]

/-- No output but `tx_data` shows the frame, and it does so in WRITE alone (R22). -/
theorem outputs_of_frameUnseen (h : FrameUnseen s g) : (s.withF g).outputs = s.outputs := by
  by_cases hst : s.st = .write
  · obtain rfl := (frameUnseen_sending (.inl hst)).mp h
    rfl
  · simp [State.withF, State.outputs, hst]

/-! ### Frames that differ at offset 16 at most -/

/-- Frames that differ at offset 16 at most are one once it is written. -/
theorem set_cs_congr {f : Frame} (h : ∀ i : FrameOffset, i ≠ 16 → g[i] = f[i]) (b : Byte) : g.set 16 b = f.set 16 b := by
  refine frame_ext fun i => ?_
  by_cases hi : i = 16
  · subst hi
    simp
  · rw [set_cs_get_ne _ _ _ hi, set_cs_get_ne _ _ _ hi, h i hi]

/-- LOAD fills every offset but 16, whatever the frame held (R66, R67). -/
theorem fillFrame_congr (m : Mode) (v : Record) (f g : Frame) (i : FrameOffset) (hi : i ≠ 16) :
    (fillFrame m v g)[i] = (fillFrame m v f)[i] := by
  rw [fillFrame_get, fillFrame_get, if_neg hi, if_neg hi]

/-! ### One step of two runs, and any number -/

/-- CSUM stores the low byte of ACC at offset 16, whatever the sum (R86). -/
theorem step_csum_low_byte (hst : s.st = .csum) (hrst : s.now.rst = false) :
    step s = .next (State.advance { s with f := s.f.set 16 (s.acc.extractLsb' 0 8), idx := 0, st := .write }) := by
  rw [step_of_fetch (fetch_csum hst hrst)]
  rfl

/-- SUM reads one byte of the window, the same of both frames (R85, R90). -/
theorem step_sum_frameUnseen (hrst : s.now.rst = false) (hst : s.st = .sum) (h : FrameUnseen s g) :
    ∃ t g', step s = .next t ∧ step (s.withF g) = .next (t.withF g') ∧ FrameUnseen t g' := by
  obtain ⟨⟨h4, h15⟩, hbytes⟩ := (frameUnseen_sum hst).mp h
  have hbyte : g[s.idx] = s.f[s.idx] := hbytes _ (Fin.ne_of_val_ne (show s.idx.val ≠ 16 by omega))
  by_cases hlast : s.idx = 15
  · have hstep := step_sum_last (s := s.withF g) hst hrst hlast
    simp only [State.withF, hbyte] at hstep
    exact ⟨_, g, step_sum_last hst hrst hlast, hstep, (frameUnseen_csum rfl).mpr hbytes⟩
  · have hlt : s.idx.val < 15 := lt_of_le_of_ne h15 fun e => hlast (Fin.ext e)
    have hnext : 4 ≤ s.idx.val + 1 ∧ s.idx.val + 1 ≤ 15 := by omega
    have hstep := step_sum_next (s := s.withF g) (j := nextOffset s.idx (by omega)) hst hrst h4 hlt rfl
    simp only [State.withF, State.summed, hbyte] at hstep
    exact ⟨_, g, step_sum_next hst hrst h4 hlt rfl, hstep,
      (frameUnseen_sum (by simpa [State.summed] using hst)).mpr ⟨hnext, hbytes⟩⟩

/-- A step answers alike with either frame, and the frames it leaves are again not told apart. In WRITE and DRAIN the two
runs are one. -/
theorem step_frameUnseen (h : FrameUnseen s g) :
    ∃ t g', step s = .next t ∧ step (s.withF g) = .next (t.withF g') ∧ FrameUnseen t g' := by
  cases hrst : s.now.rst with
  | true => exact ⟨_, g, step_reset hrst, step_reset hrst, trivial⟩
  | false =>
    cases hst : s.st with
    | idle =>
      cases hstart : s.now.start with
      | true => exact ⟨_, g, step_start hst hrst hstart, step_start hst hrst hstart, trivial⟩
      | false => exact ⟨_, g, step_idle_wait hst hrst hstart, step_idle_wait hst hrst hstart, h⟩
    | poll =>
      cases hnext : s.now.srcHasNext with
      | true => exact ⟨_, g, step_poll_more hst hrst hnext, step_poll_more hst hrst hnext, trivial⟩
      | false => exact ⟨_, g, step_poll_end hst hrst hnext, step_poll_end hst hrst hnext, trivial⟩
    | load =>
      exact ⟨_, _, step_load hst hrst, step_load hst hrst,
        (frameUnseen_sum rfl).mpr ⟨by simp [State.loaded], fillFrame_congr _ _ _ _⟩⟩
    | sum => exact step_sum_frameUnseen hrst hst h
    | csum =>
      have hset := set_cs_congr ((frameUnseen_csum hst).mp h) (s.acc.extractLsb' 0 8)
      exact ⟨_, _, step_csum_low_byte hst hrst, step_csum_low_byte hst hrst,
        (frameUnseen_sending (.inl rfl)).mpr hset⟩
    | write | drain =>
      obtain rfl := (frameUnseen_sending (by simp [hst])).mp h
      have hinv : IndexInv s := by simp [IndexInv, hst]
      obtain ⟨t, ht⟩ := stepNeverStops s hinv
      exact ⟨t, t.f, ht, ht, frameUnseen_self (step_keeps_indexInv hinv ht)⟩
    | done => exact ⟨_, g, step_done_hold hst hrst, step_done_hold hst hrst, h⟩
    | abort => exact ⟨_, g, step_abort_hold hst hrst, step_abort_hold hst hrst, h⟩

/-- So does any number of steps. -/
theorem runSteps_frameUnseen (k : Nat) (h : FrameUnseen s g) :
    ∃ t g', runSteps k s = .next t ∧ runSteps k (s.withF g) = .next (t.withF g') ∧ FrameUnseen t g' := by
  induction k generalizing s g with
  | zero => exact ⟨s, g, rfl, rfl, h⟩
  | succ k ih =>
    obtain ⟨t, g', hs, hg, h'⟩ := step_frameUnseen h
    rw [runSteps_succ k hs, runSteps_succ k hg]
    exact ih h'

end

/-- Settles O56: before LOAD every frame is unseen, and the outputs show no unseen frame. -/
theorem frameContentBeforeLoadIsUnobservable : Obligations.FrameContentBeforeLoadIsUnobservable := by
  intro k s g hst
  obtain ⟨t, g', hs, hg, h⟩ := runSteps_frameUnseen k (frameUnseen_beforeLoad (g := g) hst)
  exact ⟨t, _, hs, hg, rfl, outputs_of_frameUnseen h⟩

end Sys2Proof.Machine
end

section
/-!
PROOFS. The record that a stable source offers is the one taken (O58).
-/

namespace Sys2Proof.Machine

/-- Settles O58: POLL finds the first sample's record, and LOAD takes the second sample's, which is the same (R123, R174). -/
theorem recordOfferedIsRecordTaken : Obligations.RecordOfferedIsRecordTaken := by
  intro s x y rest hst hin hrstx hrsty hnext hstable
  obtain ⟨hdata, hshort⟩ := hstable
  have hx : s.now = x := State.now_cons s x _ hin
  have hy : State.now (State.advance { s with st := .load }) = y := State.now_cons _ y rest (by simp [hin])
  have hpoll := step_poll_more hst (by rwa [hx]) (by rwa [hx])
  have hload := step_load (s := State.advance { s with st := .load }) rfl (by rwa [hy])
  refine ⟨_, (runSteps_succ 1 hpoll).trans (runSteps_succ 0 hload), rfl, ?_⟩
  simp [State.loaded, hy, hdata, hshort]

end Sys2Proof.Machine
end
